-- ==== Sys2Proof/Word.lean ====
section
/-! DEFINITION. The data word of the unit. -/

namespace Sys2Proof

/-- `u16` of R8: an unsigned 16-bit value, the width W of R6 (A, B, each operand, the result). Bit 0 is the least significant. -/
abbrev Word := BitVec 16

end Sys2Proof
end

