-- ==== Sys2Proof/Syntax.lean ====
section
/-! DEFINITION. The enumerations, records and the nine cycle kinds (spec/30_encoding.md), all symbolic; their codes are in Decode. -/

namespace Sys2Proof

/-- FSM state (R52, R90). Three constructors, so that the code 3 of D4 is unrepresentable (R14). -/
inductive Fsm where
  | idle
  | calc
  | done
deriving DecidableEq, Repr, Inhabited

/-- `a_sel` and `b_sel` (R53): the request operand, the subtraction result, or don't-care (R54). -/
inductive OperandSel where
  | req
  | sub
  | dc
deriving DecidableEq, Repr

/-- `out_sel` (R53): A, B, or don't-care (R54). -/
inductive OutSel where
  | a
  | b
  | dc
deriving DecidableEq, Repr

/-- `sub_sel` (R53): A minus B, B minus A, or don't-care (R54). -/
inductive SubSel where
  | aMinusB
  | bMinusA
  | dc
deriving DecidableEq, Repr

/-- The control signal bundle (R55), six signals from the Control FSM to the Datapath. -/
structure Control where
  aEn : Bool
  aSel : OperandSel
  bEn : Bool
  bSel : OperandSel
  outSel : OutSel
  subSel : SubSel
deriving DecidableEq, Repr

/-- Request record `{a, b}` (R50). -/
structure Request where
  a : Word
  b : Word
deriving DecidableEq, Repr, Inhabited

/-- Response record `{value}` (R51). -/
structure Response where
  value : Word
deriving DecidableEq, Repr, Inhabited

/-- The input pins of one cycle: `reset` (D1, D2) and the input vector `req_val`, `resp_rdy`, `req_a`, `req_b` of R33.
With `reset` low it is the stimulus line of R60; with `reset` high it is the pseudo-line RESET of R62. Bool and Word fields make an
undefined input unrepresentable (R179; DESIGN CHOICE of the spec: log entry 15). -/
structure Inputs where
  reset : Bool
  reqVal : Bool
  respRdy : Bool
  reqA : Word
  reqB : Word
deriving DecidableEq, Repr, Inhabited

/-- The nine cycle kinds (R57), one constructor per row of spec/opcode_table.json. The operands are the bits of the key K that the
row's pattern leaves free (its `x` bits), most significant first; no meaning reads them (R98 to R106 name each as ignored). DESIGN CHOICE,
safe: log entry 7. -/
inductive Instr where
  | idleWait (finished swap respRdy : Bool)
  | idleAccept (finished swap respRdy : Bool)
  | subA (respRdy reqVal : Bool)
  | subB (respRdy reqVal : Bool)
  | finStall (swap reqVal : Bool)
  | finDrain (swap : Bool)
  | finChain (swap : Bool)
  | doneStall (finished swap reqVal : Bool)
  | doneDrain (finished swap reqVal : Bool)
deriving DecidableEq, Repr

end Sys2Proof
end

