-- ==== Sys2Proof/Config.lean ====
section
/-! DEFINITION. What is fixed for one unit but not by the spec: the free values (opaque, so that no proof sees a number) and the
resolution of the two don't-care selects that the spec leaves a parameter. -/

namespace Sys2Proof.Config

/-- `RESET_A` of R20 and R171: what A holds in `State.reset`. A free value: D3 and U7 ("any value"). DESIGN CHOICE, unsafe: log entry 2. -/
opaque resetA : Word

/-- `RESET_B` of R20 and R171, as `resetA`. DESIGN CHOICE, unsafe: log entry 2. -/
opaque resetB : Word

/-- What A holds after a cycle with `reset` = 1: "any u16 value ... they may hold, load, or change" (R172, U8). A free value that may
depend on the cycle's number, the start-of-cycle registers and all the pins. DESIGN CHOICE, safe: log entry 5. -/
opaque afterResetA (cycle : Nat) (fsm : Fsm) (a b : Word) (pins : Inputs) : Word

/-- What B holds after a cycle with `reset` = 1, as `afterResetA`. DESIGN CHOICE, safe: log entry 5. -/
opaque afterResetB (cycle : Nat) (fsm : Fsm) (a b : Word) (pins : Inputs) : Word

/-- The environment's `reset` pin in cycle `n`, when no pending input vector is listed. A free value (R157, D16).
DESIGN CHOICE, safe for statements about every state: log entry 1. -/
opaque freeReset : Nat → Bool

/-- The environment's `req_val` in cycle `n`, when no pending input vector is listed. A free value (D11).
DESIGN CHOICE, safe for statements about every state: log entry 1. -/
opaque freeReqVal : Nat → Bool

/-- The environment's `resp_rdy` in cycle `n`, when no pending input vector is listed. A free value (D11, D18).
DESIGN CHOICE, safe for statements about every state: log entry 1. -/
opaque freeRespRdy : Nat → Bool

/-- The environment's `req_a` in cycle `n`, when no pending input vector is listed. A free value (D11).
DESIGN CHOICE, safe for statements about every state: log entry 1. -/
opaque freeReqA : Nat → Word

/-- The environment's `req_b` in cycle `n`, when no pending input vector is listed. A free value (D11).
DESIGN CHOICE, safe for statements about every state: log entry 1. -/
opaque freeReqB : Nat → Word

/-- Which input a don't-care `out_sel` and a don't-care `sub_sel` resolve to, as the codes of R53 (`false` is the first input).
R54: "a model may make the resolution of `out_sel` and `sub_sel` a parameter and prove claims for both values" (U2, U3). -/
structure DontCare where
  outSel : Bool
  subSel : Bool
deriving DecidableEq, Repr

/-- The spec's own resolution, D6: the first input, A and A_MINUS_B. DESIGN CHOICE of the spec, safe at the ports: log entry 6. -/
def dontCare : DontCare := { outSel := false, subSel := false }

end Sys2Proof.Config
end

