-- ==== Sys2Proof/WellFormed.lean ====
section
/-! DEFINITION. The checks on terms: which keys, which instructions and which input vectors are legal. -/

namespace Sys2Proof

/-- A 6-bit key is legal when its state code K[5:4] is not the reserved 0b11 (R14, R57, R58). -/
def wfKey (k : BitVec 6) : Bool := k.extractLsb' 4 2 != 0b11#2

/-- An instruction is well-formed for every value of its operands: they are the `x` bits of R57, "either value". A DONE kind with
`finished` low is not reachable after reset (R138) but it is a legal key with a meaning (U12), so it is not refused. -/
def Instr.wf : Instr → Bool
  | .idleWait _ _ _ => true
  | .idleAccept _ _ _ => true
  | .subA _ _ => true
  | .subB _ _ => true
  | .finStall _ _ => true
  | .finDrain _ => true
  | .finChain _ => true
  | .doneStall _ _ _ => true
  | .doneDrain _ _ _ => true

/-- An input vector has a stimulus word exactly when its `reset` is low (R62: RESET is "not encodable as a stimulus word"). -/
def Inputs.wf (i : Inputs) : Bool := !i.reset

end Sys2Proof
end

