-- ==== Sys2Proof/Decode.lean ====
section
/-! DEFINITION. The decode key K, the decoder and encoder of cycle kinds, the opcode table's rows, and the other bit layouts of
spec/30_encoding.md (state and select codes, control word, records, stimulus word). -/

namespace Sys2Proof

/-- Why a key is rejected. -/
inductive DecodeError where
  /-- The state code K[5:4] is 0b11: reserved, "a model must refuse it rather than pick a behaviour" (R58). Safe. -/
  | reservedState
deriving DecidableEq, Repr

/-- The coding of the FSM state (R52, D4; DESIGN CHOICE of the spec, safe: log entry 8). -/
def Fsm.code : Fsm → BitVec 2
  | .idle => 0b00#2
  | .calc => 0b01#2
  | .done => 0b10#2

/-- The FSM state of a state code; the code 0b11 has none (R14). -/
def Fsm.ofCode (c : BitVec 2) : Option Fsm :=
  if c = 0b00#2 then some .idle
  else if c = 0b01#2 then some .calc
  else if c = 0b10#2 then some .done
  else none

/-- A bit of a key, control word or stimulus word (R8: `bool` is one bit). -/
def bit (b : Bool) : BitVec 1 := BitVec.ofBool b

/-- The decode key K[5:0] = state ## finished ## swap ## resp_rdy ## req_val (R56, D8; DESIGN CHOICE of the spec, safe: log entry 7). -/
def packKey (state : Fsm) (finished swap respRdy reqVal : Bool) : BitVec 6 :=
  state.code ++ bit finished ++ bit swap ++ bit respRdy ++ bit reqVal

/-- The cycle kind of an IDLE key, K = 00xxx0 and 00xxx1 (R98, R99). -/
def decodeIdle (finished swap respRdy reqVal : Bool) : Instr :=
  if reqVal then .idleAccept finished swap respRdy else .idleWait finished swap respRdy

/-- The cycle kind of a CALC key, K = 0100xx, 0101xx, 011x0x, 011x10, 011x11 (R100 to R104). -/
def decodeCalc (finished swap respRdy reqVal : Bool) : Instr :=
  if finished then
    if respRdy then (if reqVal then .finChain swap else .finDrain swap)
    else .finStall swap reqVal
  else if swap then .subB respRdy reqVal
  else .subA respRdy reqVal

/-- The cycle kind of a DONE key, K = 10xx0x and 10xx1x (R105, R106). -/
def decodeDone (finished swap respRdy reqVal : Bool) : Instr :=
  if respRdy then .doneDrain finished swap reqVal else .doneStall finished swap reqVal

/-- The decoder: total on every 6-bit key; the reserved state code is rejected by name (R57, R58). -/
def decode (k : BitVec 6) : Except DecodeError Instr :=
  let finished := k.getLsbD 3
  let swap := k.getLsbD 2
  let respRdy := k.getLsbD 1
  let reqVal := k.getLsbD 0
  match Fsm.ofCode (k.extractLsb' 4 2) with
  | some .idle => .ok (decodeIdle finished swap respRdy reqVal)
  | some .calc => .ok (decodeCalc finished swap respRdy reqVal)
  | some .done => .ok (decodeDone finished swap respRdy reqVal)
  | none => .error .reservedState

/-- The encoder: the key of a cycle kind, written from the K column of R57 (its fixed bits, its `x` bits in order). -/
def encode : Instr → BitVec 6
  | .idleWait fin sw rr => 0b00#2 ++ bit fin ++ bit sw ++ bit rr ++ 0b0#1
  | .idleAccept fin sw rr => 0b00#2 ++ bit fin ++ bit sw ++ bit rr ++ 0b1#1
  | .subA rr rv => 0b0100#4 ++ bit rr ++ bit rv
  | .subB rr rv => 0b0101#4 ++ bit rr ++ bit rv
  | .finStall sw rv => 0b011#3 ++ bit sw ++ 0b0#1 ++ bit rv
  | .finDrain sw => 0b011#3 ++ bit sw ++ 0b10#2
  | .finChain sw => 0b011#3 ++ bit sw ++ 0b11#2
  | .doneStall fin sw rv => 0b10#2 ++ bit fin ++ bit sw ++ 0b0#1 ++ bit rv
  | .doneDrain fin sw rv => 0b10#2 ++ bit fin ++ bit sw ++ 0b1#1 ++ bit rv

/-- A row of the opcode table: K is of this kind when its masked bits equal the pattern. -/
structure OpcodeRow where
  mnemonic : String
  pattern : BitVec 6
  mask : BitVec 6
deriving DecidableEq, Repr

/-- A key matches a row. -/
def OpcodeRow.matchesKey (r : OpcodeRow) (k : BitVec 6) : Bool := k &&& r.mask == r.pattern

/-- The rows of spec/opcode_table.json, in its order (its `match` and `mask`). -/
def opcodeTable : List OpcodeRow :=
  [ { mnemonic := "IDLE_WAIT", pattern := 0b000000#6, mask := 0b110001#6 },
    { mnemonic := "IDLE_ACCEPT", pattern := 0b000001#6, mask := 0b110001#6 },
    { mnemonic := "SUB_A", pattern := 0b010000#6, mask := 0b111100#6 },
    { mnemonic := "SUB_B", pattern := 0b010100#6, mask := 0b111100#6 },
    { mnemonic := "FIN_STALL", pattern := 0b011000#6, mask := 0b111010#6 },
    { mnemonic := "FIN_DRAIN", pattern := 0b011010#6, mask := 0b111011#6 },
    { mnemonic := "FIN_CHAIN", pattern := 0b011011#6, mask := 0b111011#6 },
    { mnemonic := "DONE_STALL", pattern := 0b100000#6, mask := 0b110010#6 },
    { mnemonic := "DONE_DRAIN", pattern := 0b100010#6, mask := 0b110010#6 } ]

/-- The mnemonic of a cycle kind, as the table spells it (D8). -/
def Instr.mnemonic : Instr → String
  | .idleWait _ _ _ => "IDLE_WAIT"
  | .idleAccept _ _ _ => "IDLE_ACCEPT"
  | .subA _ _ => "SUB_A"
  | .subB _ _ => "SUB_B"
  | .finStall _ _ => "FIN_STALL"
  | .finDrain _ => "FIN_DRAIN"
  | .finChain _ => "FIN_CHAIN"
  | .doneStall _ _ _ => "DONE_STALL"
  | .doneDrain _ _ _ => "DONE_DRAIN"

/-- The instruction the decoder reads from a table word `w` of `nbits` bits: the low six bits are K and every bit above them must be 0. -/
def decodeTableWord (nbits w : Nat) : Option Instr :=
  let bits := w % 2 ^ nbits
  if bits < 64 then
    match decode (BitVec.ofNat 6 bits) with
    | .ok i => some i
    | .error _ => none
  else none

/-- The code of an operand select (R53, D5); don't-care is the first input (R54, U1). -/
def OperandSel.code : OperandSel → Bool
  | .req => false
  | .sub => true
  | .dc => false

/-- The code of `out_sel` (R53, D5), its don't-care resolved by the parameter (R54, U2). -/
def OutSel.code (dc : Config.DontCare) : OutSel → Bool
  | .a => false
  | .b => true
  | .dc => dc.outSel

/-- The code of `sub_sel` (R53, D5), its don't-care resolved by the parameter (R54, U3). -/
def SubSel.code (dc : Config.DontCare) : SubSel → Bool
  | .aMinusB => false
  | .bMinusA => true
  | .dc => dc.subSel

/-- The control word CW[5:0] = a_en, a_sel, b_en, b_sel, out_sel, sub_sel (R55, D7). -/
def Control.word (dc : Config.DontCare) (c : Control) : BitVec 6 :=
  bit c.aEn ++ bit c.aSel.code ++ bit c.bEn ++ bit c.bSel.code ++ bit (c.outSel.code dc) ++ bit (c.subSel.code dc)

/-- The packed request record: a in [31:16], b in [15:0] (R50, D9; DESIGN CHOICE of the spec: log entry 9). -/
def Request.pack (r : Request) : BitVec 32 := r.a ++ r.b

/-- The request record of a packed word (R50). -/
def Request.unpack (w : BitVec 32) : Request := { a := w.extractLsb' 16 16, b := w.extractLsb' 0 16 }

/-- The packed response record: the 16-bit value itself (R51, D9). -/
def Response.pack (r : Response) : BitVec 16 := r.value

/-- The response record of a packed word (R51). -/
def Response.unpack (w : BitVec 16) : Response := { value := w }

/-- The 34-bit layout of a stimulus word: rv ## rr ## the packed request record (R61). -/
def stimulusWord (rv rr : Bool) (q : Request) : BitVec 34 := bit rv ++ bit rr ++ q.pack

/-- The stimulus word of a line with `reset` low (R61). The pseudo-line RESET has none (R62). -/
def Inputs.encode (i : Inputs) : Option (BitVec 34) :=
  if i.reset then none else some (stimulusWord i.reqVal i.respRdy { a := i.reqA, b := i.reqB })

/-- The line of a stimulus word (R61): bit 33 = req_val, bit 32 = resp_rdy, [31:0] = the packed request record. -/
def Inputs.decode (w : BitVec 34) : Inputs :=
  let r := Request.unpack (w.extractLsb' 0 32)
  { reset := false, reqVal := w.getLsbD 33, respRdy := w.getLsbD 32, reqA := r.a, reqB := r.b }

/-- The stimulus line `C rv a b rr` (R60). -/
def Inputs.line (rv : Bool) (a b : Word) (rr : Bool) : Inputs :=
  { reset := false, reqVal := rv, respRdy := rr, reqA := a, reqB := b }

/-- The pseudo-line `NOP rr` (R62): `C 0 0 0 rr`. -/
def Inputs.nop (rr : Bool) : Inputs := Inputs.line false 0 0 rr

/-- The pseudo-line `HOLD n : line` (R62): the line repeated n times. -/
def Inputs.hold (n : Nat) (line : Inputs) : List Inputs := List.replicate n line

/-- The pseudo-line `RESET` (R62): one cycle with `reset` high, whatever the other pins show. -/
def Inputs.resetLine (others : Inputs) : Inputs := { others with reset := true }

/-! ## Each constructor's decoding, by a word written from the K column of R57 -/

theorem decode_idleWait : decode 0b000100 = .ok (.idleWait false true false) := by decide
theorem decode_idleAccept : decode 0b000101 = .ok (.idleAccept false true false) := by decide
theorem decode_subA : decode 0b010011 = .ok (.subA true true) := by decide
theorem decode_subB : decode 0b010110 = .ok (.subB true false) := by decide
theorem decode_finStall : decode 0b011101 = .ok (.finStall true true) := by decide
theorem decode_finDrain : decode 0b011110 = .ok (.finDrain true) := by decide
theorem decode_finChain : decode 0b011011 = .ok (.finChain false) := by decide
theorem decode_doneStall : decode 0b101001 = .ok (.doneStall true false true) := by decide
theorem decode_doneDrain : decode 0b101110 = .ok (.doneDrain true true false) := by decide
theorem decode_reserved : decode 0b110110 = .error .reservedState := by decide

end Sys2Proof
end

