-- ==== Sys2Proof/Machine/State.lean ====
section
/-! DEFINITION. The state of the machine, its reset value, and the reasons a step can stop. -/

namespace Sys2Proof.Machine

/-- The stored state of the unit: "exactly three registers" (R11). -/
structure Regs where
  /-- `state`, the FSM state register (R13). -/
  fsm : Fsm
  /-- Operand register A (R12). -/
  a : Word
  /-- Operand register B (R12). -/
  b : Word
deriving DecidableEq, Repr

/-- What crossed the two ports in one cycle (R140): the handshake outputs, and the record each port transferred, if it did (R33). -/
structure PortCycle where
  reqRdy : Bool
  respVal : Bool
  request : Option Request
  response : Option Response
deriving DecidableEq, Repr

/-- The machine: the unit's registers, and the environment's side of the ports. Only `regs` is the unit's state (R11); the other
three are the model's own (DESIGN CHOICE, safe: log entries 1, 3 and 4). -/
structure State where
  /-- The unit's three registers. -/
  regs : Regs
  /-- The environment's pending input vectors, one a cycle, the next one first; after its end the inputs are free values (R33, R60, D16). -/
  stim : List Inputs
  /-- How many cycles have run: the index of the next free value. No rule of the unit reads it. -/
  cycle : Nat
  /-- What crossed the ports since the last reset, newest cycle first (R140). No rule of the unit reads it. -/
  log : List PortCycle
deriving DecidableEq, Repr

/-- The unit's faults: none. "The unit raises no exception, trap or fault of any kind" (R150). -/
inductive Fault where
deriving DecidableEq, Repr

/-- Why a step has no meaning. -/
inductive Refusal where
  /-- Raised by an arm of `exec` whose instruction has no meaning yet; no arm is one. Safe. -/
  | notModelled (mnemonic : String)
  /-- Raised by `step` for a key whose state code is 0b11 (R14, R58: a model must refuse it). No state has such a key. Safe. -/
  | reservedKey
deriving DecidableEq, Repr

/-- The machine right after reset (R20, R170): IDLE; A and B are the free values RESET_A and RESET_B (DESIGN CHOICE,
unsafe: log entry 2); nothing is pending at the ports and nothing has crossed them. -/
def State.reset : State :=
  { regs := { fsm := .idle, a := Config.resetA, b := Config.resetB }, stim := [], cycle := 0, log := [] }

end Sys2Proof.Machine
end

