-- ==== Sys2Proof/Machine/Flags.lean ====
section
/-! DEFINITION. The status flags and condition signals (R15, R16, R70, R107): combinational, from the start-of-cycle A and B. -/

namespace Sys2Proof.Machine

/-- Operation COMPARE (R70): the three status flags of R15. -/
structure Flags where
  isAZero : Bool
  isBZero : Bool
  isALtB : Bool
deriving DecidableEq, Repr

/-- The comparators: zero tests and unsigned less-than (R15). -/
def compare (r : Regs) : Flags :=
  { isAZero := r.a == 0, isBZero := r.b == 0, isALtB := r.a.ult r.b }

/-- `finished := is_a_zero ∨ is_b_zero` (R16). -/
def Flags.finished (f : Flags) : Bool := f.isAZero || f.isBZero

/-- `swap := is_a_lt_b` (R16): a mode, not an exchange. -/
def Flags.swap (f : Flags) : Bool := f.isALtB

/-- `do_sub := ¬is_b_zero` (R16, R107): computed in every state (D12), read by nothing.
DESIGN CHOICE of the spec, safe: log entry 12. -/
def Flags.doSub (f : Flags) : Bool := !f.isBZero

end Sys2Proof.Machine
end

