-- ==== Sys2Proof/Machine/Operands.lean ====
section
/-! DEFINITION. The datapath's combinational operations: subtractor, input multiplexers, output multiplexer (R71, R73, R75, R76). -/

namespace Sys2Proof.Machine

/-- `mux2(sel, in0, in1)` of R9. -/
def mux2 (sel : Bool) (in0 in1 : Word) : Word := if sel then in1 else in0

/-- `x -_16 y` of R9: the difference modulo 2^16. -/
def sub16 (x y : Word) : Word := x - y

/-- Operation SUBTRACT (R71): `sub_out`, modulo 2^16, no borrow output. -/
def subOut (dc : Config.DontCare) (c : Control) (r : Regs) : Word :=
  mux2 (c.subSel.code dc) (sub16 r.a r.b) (sub16 r.b r.a)

/-- Operation A_MUX (R73). -/
def aMux (dc : Config.DontCare) (c : Control) (r : Regs) (i : Inputs) : Word :=
  mux2 c.aSel.code i.reqA (subOut dc c r)

/-- Operation B_MUX (R75). -/
def bMux (dc : Config.DontCare) (c : Control) (r : Regs) (i : Inputs) : Word :=
  mux2 c.bSel.code i.reqB (subOut dc c r)

/-- Operation OUT_MUX (R76): `resp_value`, driven in every cycle (D15; DESIGN CHOICE of the spec, safe: log entry 11). -/
def outMux (dc : Config.DontCare) (c : Control) (r : Regs) : Word :=
  mux2 (c.outSel.code dc) r.a r.b

/-- `out_sel` in CALC and DONE (R92, R93): A if `is_b_zero`, else B. -/
def outSelOf (f : Flags) : OutSel := if f.isBZero then .a else .b

/-- `sub_sel` in CALC (R92): B_MINUS_A if `swap`, else A_MINUS_B. -/
def subSelOf (f : Flags) : SubSel := if f.swap then .bMinusA else .aMinusB

end Sys2Proof.Machine
end

