-- ==== Sys2Proof/Machine/Ops.lean ====
section
/-! DEFINITION. The shared operations: reading the inputs of a cycle, the register loads, committing a cycle, a cycle of a given kind,
and the reset cycle. There is no memory operation (R30) and no exception entry or return (R150, R154, R155). -/

namespace Sys2Proof.Machine

/-- The environment's input vector of cycle `n` when none is listed: free values (D11, D16). DESIGN CHOICE: log entry 1. -/
def freeInputs (n : Nat) : Inputs :=
  { reset := Config.freeReset n, reqVal := Config.freeReqVal n, respRdy := Config.freeRespRdy n,
    reqA := Config.freeReqA n, reqB := Config.freeReqB n }

/-- The input vector the environment supplies `k` cycles from now (R33): the listed one, or a free one after the list's end. -/
def State.inputAt (s : State) (k : Nat) : Inputs :=
  match s.stim[k]? with
  | some i => i
  | none => freeInputs (s.cycle + k)

/-- The input vector of the current cycle. -/
def State.inputs (s : State) : Inputs := s.inputAt 0

/-- The request payload on the pins (R31, R50). -/
def requestOf (i : Inputs) : Request := { a := i.reqA, b := i.reqB }

/-- Operation A_LOAD (R74): A adopts the multiplexer's output when `a_en` is 1, else it holds. -/
def aLoad (dc : Config.DontCare) (c : Control) (r : Regs) (i : Inputs) : Word :=
  if c.aEn then aMux dc c r i else r.a

/-- Operation B_LOAD (R75): B adopts the multiplexer's output when `b_en` is 1, else it holds. -/
def bLoad (dc : Config.DontCare) (c : Control) (r : Regs) (i : Inputs) : Word :=
  if c.bEn then bMux dc c r i else r.b

/-- The register commit at the cycle boundary (R10, R43): all three registers at once, from start-of-cycle values. -/
def commitRegs (dc : Config.DontCare) (c : Control) (next : Fsm) (r : Regs) (i : Inputs) : Regs :=
  { fsm := next, a := aLoad dc c r i, b := bLoad dc c r i }

/-- The end of a cycle: the registers adopt `r`, the input vector is used up, and what crossed the ports is noted. -/
def State.endCycle (s : State) (r : Regs) (p : PortCycle) : State :=
  { regs := r, stim := s.stim.tail, cycle := s.cycle + 1, log := p :: s.log }

/-- What a row of R57 says of its cycle kind: handshake outputs, control word, transfers, next state. -/
structure Issue where
  reqRdy : Bool
  respVal : Bool
  control : Control
  reqXfer : Bool
  respXfer : Bool
  next : Fsm
deriving DecidableEq, Repr

/-- One cycle of a kind: the datapath obeys the issued control word on the current registers and inputs, the transfers move the
whole record (R33, R43), and the registers commit. -/
def State.runCycle (s : State) (k : Issue) : State :=
  s.endCycle (commitRegs Config.dontCare k.control k.next s.regs s.inputs)
    { reqRdy := k.reqRdy, respVal := k.respVal,
      request := if k.reqXfer then some (requestOf s.inputs) else none,
      response := if k.respXfer then some { value := outMux Config.dontCare k.control s.regs } else none }

/-- A cycle with `reset` = 1 (R172, D2): the FSM goes to IDLE, A and B take any value (free values: they may hold, load or change), no
transfer occurs, and a new run begins (its port log is empty). DESIGN CHOICE of the spec, unsafe for an asynchronous reset: log entry 5. -/
def State.resetCycle (s : State) : State :=
  { regs :=
      { fsm := .idle
        a := Config.afterResetA s.cycle s.regs.fsm s.regs.a s.regs.b s.inputs
        b := Config.afterResetB s.cycle s.regs.fsm s.regs.a s.regs.b s.inputs }
    stim := s.stim.tail, cycle := s.cycle + 1, log := [] }

end Sys2Proof.Machine
end

