-- ==== Sys2Proof/Machine/Calc.lean ====
section
/-! DEFINITION. The two subtraction steps of an unfinished CALC cycle (R92, R100, R101). -/

namespace Sys2Proof.Machine

/-- The control word of SUB_A: a_en=1 SUB, b_en=0, out_sel=B, sub_sel=A_MINUS_B (R100). -/
def subAControl : Control :=
  { aEn := true, aSel := .sub, bEn := false, bSel := .dc, outSel := .b, subSel := .aMinusB }

/-- The control word of SUB_B: a_en=0, b_en=1 SUB, out_sel=B, sub_sel=B_MINUS_A (R101). -/
def subBControl : Control :=
  { aEn := false, aSel := .dc, bEn := true, bSel := .sub, outSel := .b, subSel := .bMinusA }

/-- SUB_A (R100): A adopts A minus B, B holds, stay in CALC; nothing transfers. -/
def execSubA (s : State) : Host.Outcome State Fault Refusal :=
  .next (s.runCycle
    { reqRdy := false, respVal := false, control := subAControl, reqXfer := false, respXfer := false, next := .calc })

/-- SUB_B (R101): B adopts B minus A, A holds, stay in CALC; nothing transfers. -/
def execSubB (s : State) : Host.Outcome State Fault Refusal :=
  .next (s.runCycle
    { reqRdy := false, respVal := false, control := subBControl, reqXfer := false, respXfer := false, next := .calc })

end Sys2Proof.Machine
end

