-- ==== Sys2Proof/Machine/Done.lean ====
section
/-! DEFINITION. The cycle kinds of DONE (R93, R105, R106). -/

namespace Sys2Proof.Machine

/-- The control word of both DONE kinds: both enables 0, out_sel from the flags, sub_sel don't-care (R93). -/
def doneControl (f : Flags) : Control :=
  { aEn := false, aSel := .dc, bEn := false, bSel := .dc, outSel := outSelOf f, subSel := .dc }

/-- DONE_STALL (R105): the result is offered and not taken; A and B hold; stay in DONE. -/
def execDoneStall (s : State) : Host.Outcome State Fault Refusal :=
  .next (s.runCycle
    { reqRdy := false, respVal := true, control := doneControl (compare s.regs), reqXfer := false, respXfer := false,
      next := .done })

/-- DONE_DRAIN (R106): the result is delivered; A and B hold; go to IDLE, never accepting a request in this cycle. -/
def execDoneDrain (s : State) : Host.Outcome State Fault Refusal :=
  .next (s.runCycle
    { reqRdy := false, respVal := true, control := doneControl (compare s.regs), reqXfer := false, respXfer := true,
      next := .idle })

end Sys2Proof.Machine
end

