-- ==== Sys2Proof/Machine/Finish.lean ====
section
/-! DEFINITION. The three kinds of a finished CALC cycle (R92, R102, R103, R104). -/

namespace Sys2Proof.Machine

/-- The control word of FIN_STALL: both enables 0, out_sel and sub_sel from the flags (R102). -/
def finHoldControl (f : Flags) : Control :=
  { aEn := false, aSel := .dc, bEn := false, bSel := .dc, outSel := outSelOf f, subSel := subSelOf f }

/-- The control word of FIN_DRAIN and FIN_CHAIN: both registers load the request payload (R103, R104). -/
def finLoadControl (f : Flags) : Control :=
  { aEn := true, aSel := .req, bEn := true, bSel := .req, outSel := outSelOf f, subSel := subSelOf f }

/-- FIN_STALL (R102): the result is offered and not taken; A and B hold; go to DONE. -/
def execFinStall (s : State) : Host.Outcome State Fault Refusal :=
  .next (s.runCycle
    { reqRdy := false, respVal := true, control := finHoldControl (compare s.regs), reqXfer := false, respXfer := false,
      next := .done })

/-- FIN_DRAIN (R103): the result is delivered and no request is valid; A and B load the payload pins; go to IDLE. -/
def execFinDrain (s : State) : Host.Outcome State Fault Refusal :=
  .next (s.runCycle
    { reqRdy := true, respVal := true, control := finLoadControl (compare s.regs), reqXfer := false, respXfer := true,
      next := .idle })

/-- FIN_CHAIN (R104): the result is delivered and the next request is accepted in the same cycle; stay in CALC on the new pair. -/
def execFinChain (s : State) : Host.Outcome State Fault Refusal :=
  .next (s.runCycle
    { reqRdy := true, respVal := true, control := finLoadControl (compare s.regs), reqXfer := true, respXfer := true,
      next := .calc })

end Sys2Proof.Machine
end

