-- ==== Sys2Proof/Machine/Idle.lean ====
section
/-! DEFINITION. The cycle kinds of IDLE (R91, R98, R99). -/

namespace Sys2Proof.Machine

/-- The control word of both IDLE kinds: a_en=1 REQ, b_en=1 REQ, out_sel and sub_sel don't-care (R91). -/
def idleControl : Control :=
  { aEn := true, aSel := .req, bEn := true, bSel := .req, outSel := .dc, subSel := .dc }

/-- IDLE_WAIT (R98): no request is valid; A and B load the payload pins all the same; stay in IDLE. -/
def execIdleWait (s : State) : Host.Outcome State Fault Refusal :=
  .next (s.runCycle
    { reqRdy := true, respVal := false, control := idleControl, reqXfer := false, respXfer := false, next := .idle })

/-- IDLE_ACCEPT (R99): a request transfers; A and B load it; go to CALC. -/
def execIdleAccept (s : State) : Host.Outcome State Fault Refusal :=
  .next (s.runCycle
    { reqRdy := true, respVal := false, control := idleControl, reqXfer := true, respXfer := false, next := .calc })

end Sys2Proof.Machine
end

