-- ==== Sys2Proof/Machine/Dispatch.lean ====
section
/-! DEFINITION. One arm per cycle kind. -/

namespace Sys2Proof.Machine

def exec (i : Instr) (s : State) : Host.Outcome State Fault Refusal :=
  match i with
  | .idleWait _ _ _ => Sys2Proof.Machine.execIdleWait s
  | .idleAccept _ _ _ => Sys2Proof.Machine.execIdleAccept s
  | .subA _ _ => Sys2Proof.Machine.execSubA s
  | .subB _ _ => Sys2Proof.Machine.execSubB s
  | .finStall _ _ => Sys2Proof.Machine.execFinStall s
  | .finDrain _ => Sys2Proof.Machine.execFinDrain s
  | .finChain _ => Sys2Proof.Machine.execFinChain s
  | .doneStall _ _ _ => Sys2Proof.Machine.execDoneStall s
  | .doneDrain _ _ _ => Sys2Proof.Machine.execDoneDrain s

end Sys2Proof.Machine
end

