-- ==== Sys2Proof/Machine/Fetch.lean ====
section
/-! DEFINITION. Selecting the cycle kind: the unit's key of a cycle (R56), and a state whose next key is a given one. -/

namespace Sys2Proof.Machine

/-- The key K of the current cycle: the FSM state, the condition signals of A and B, and this cycle's `resp_rdy` and `req_val` (R56). -/
def keyOf (r : Regs) (i : Inputs) : BitVec 6 :=
  packKey r.fsm (compare r).finished (compare r).swap i.respRdy i.reqVal

/-- The key the unit selects its cycle kind by now. -/
def State.key (s : State) : BitVec 6 := keyOf s.regs s.inputs

/-- Register values with given `finished` and `swap` (rows of the truth table under R16). -/
def operandsFor (finished swap : Bool) : Word × Word :=
  match finished, swap with
  | false, false => (1, 1)
  | false, true => (1, 2)
  | true, false => (0, 0)
  | true, true => (0, 1)

/-- `s` with the registers and the handshake inputs that make its key `k`; a key with the reserved state code has no state (R14) and
leaves `s` as it is. The payload pins keep the listed values. DESIGN CHOICE, safe: log entry 13. -/
def State.withKey (s : State) (k : BitVec 6) : State :=
  match Fsm.ofCode (k.extractLsb' 4 2) with
  | none => s
  | some f =>
    let ab := operandsFor (k.getLsbD 3) (k.getLsbD 2)
    let cur := s.stim.headD (Inputs.nop false)
    { s with
      regs := { fsm := f, a := ab.1, b := ab.2 },
      stim := { cur with reset := false, respRdy := k.getLsbD 1, reqVal := k.getLsbD 0 } :: s.stim.tail }

end Sys2Proof.Machine
end

