-- ==== Sys2Proof/Machine/Step.lean ====
section
/-! DEFINITION. One clock cycle of the machine. -/

namespace Sys2Proof.Machine

/-- One cycle (R139): `reset` = 1 overrides everything (R153, R172); otherwise the cycle kind that the key K selects is run (R57). -/
def step (s : State) : Host.Outcome State Fault Refusal :=
  if s.inputs.reset then .next s.resetCycle
  else
    match decode s.key with
    | .ok i => exec i s
    | .error .reservedState => .refused .reservedKey

/-- `s` with the table word `w` as the key that `step` selects its cycle kind by next. -/
def State.withFetchWord (s : State) (nbits w : Nat) : State :=
  if w % 2 ^ nbits < 64 then s.withKey (BitVec.ofNat 6 (w % 2 ^ nbits)) else s

end Sys2Proof.Machine
end

