-- ==== Sys2Proof/Machine/Control.lean ====
section
/-! DEFINITION. The Control FSM as the spec's per-state equations: output logic (R91, R92, R93) and transition function (R95, R96,
R97). The cycle kinds of Idle, Calc, Finish and Done are its instances, written from their own rules; this file is the other
description, and the two are stated to agree. -/

namespace Sys2Proof.Machine

/-- The outputs of the Control FSM in one cycle: the handshake outputs and the control bundle. -/
structure FsmOut where
  reqRdy : Bool
  respVal : Bool
  control : Control
deriving DecidableEq, Repr

/-- Output logic of IDLE (R91). -/
def idleOut : FsmOut :=
  { reqRdy := true, respVal := false,
    control := { aEn := true, aSel := .req, bEn := true, bSel := .req, outSel := .dc, subSel := .dc } }

/-- Output logic of CALC (R92), equation by equation. -/
def calcOut (f : Flags) (respRdy : Bool) : FsmOut :=
  { reqRdy := f.finished && respRdy
    respVal := f.finished
    control :=
      { aSel := if !f.finished && !f.swap then .sub else if f.finished && respRdy then .req else .dc
        aEn := (!f.finished && !f.swap) || (f.finished && respRdy)
        bSel := if !f.finished && f.swap then .sub else if f.finished && respRdy then .req else .dc
        bEn := (!f.finished && f.swap) || (f.finished && respRdy)
        outSel := if f.isBZero then .a else .b
        subSel := if f.swap then .bMinusA else .aMinusB } }

/-- Output logic of DONE (R93). -/
def doneOut (f : Flags) : FsmOut :=
  { reqRdy := false, respVal := true,
    control := { aEn := false, aSel := .dc, bEn := false, bSel := .dc, outSel := if f.isBZero then .a else .b, subSel := .dc } }

/-- The output logic, a pure function of state, flags and handshake inputs (R108). -/
def fsmOut (state : Fsm) (f : Flags) (respRdy : Bool) : FsmOut :=
  match state with
  | .idle => idleOut
  | .calc => calcOut f respRdy
  | .done => doneOut f

/-- Transition from IDLE (R95). -/
def nextFromIdle (reqXfer : Bool) : Fsm := if reqXfer then .calc else .idle

/-- Transition from CALC (R96), the rows in priority order: the first that holds is taken (D14, C1).
DESIGN CHOICE of the spec, unsafe: log entry 10. -/
def nextFromCalc (finished respRdy reqVal : Bool) : Fsm :=
  if finished && respRdy && !reqVal then .idle
  else if finished && !(respRdy && reqVal) then .done
  else .calc

/-- Transition from DONE (R97). -/
def nextFromDone (respXfer : Bool) : Fsm := if respXfer then .idle else .done

end Sys2Proof.Machine
end

