-- ==== Sys2Proof/Machine/Cycle.lean ====
section
/-! DEFINITION. The whole cycle as R131 writes it: phase (a), every combinational signal; phase (b), the commit. -/

namespace Sys2Proof.Machine

/-- The combinational signals of one cycle (R131, phase (a)). -/
structure Signals where
  flags : Flags
  finished : Bool
  swap : Bool
  doSub : Bool
  reqRdy : Bool
  respVal : Bool
  control : Control
  subOut : Word
  aMuxOut : Word
  bMuxOut : Word
  respValue : Word
  reqXfer : Bool
  respXfer : Bool
deriving DecidableEq, Repr

/-- Phase (a) of R131, for a resolution `dc` of the don't-care selects: a function of start-of-cycle registers and inputs only (R10). -/
def settle (dc : Config.DontCare) (r : Regs) (i : Inputs) : Signals :=
  let f := compare r
  let o := fsmOut r.fsm f i.respRdy
  { flags := f, finished := f.finished, swap := f.swap, doSub := f.doSub
    reqRdy := o.reqRdy, respVal := o.respVal, control := o.control
    subOut := subOut dc o.control r
    aMuxOut := aMux dc o.control r i
    bMuxOut := bMux dc o.control r i
    respValue := outMux dc o.control r
    reqXfer := i.reqVal && o.reqRdy
    respXfer := o.respVal && i.respRdy }

/-- The next FSM state of R131 (R95, R96, R97). -/
def nextFsm (r : Regs) (i : Inputs) (g : Signals) : Fsm :=
  match r.fsm with
  | .idle => nextFromIdle g.reqXfer
  | .calc => nextFromCalc g.finished i.respRdy i.reqVal
  | .done => nextFromDone g.respXfer

/-- Phase (b) of R131: the registers after the cycle boundary. -/
def tick (dc : Config.DontCare) (r : Regs) (i : Inputs) : Regs :=
  let g := settle dc r i
  { fsm := nextFsm r i g
    a := if g.control.aEn then g.aMuxOut else r.a
    b := if g.control.bEn then g.bMuxOut else r.b }

/-- What crosses the ports in the cycle of R131 (R33): a transfer moves the whole record. -/
def portsOf (dc : Config.DontCare) (r : Regs) (i : Inputs) : PortCycle :=
  let g := settle dc r i
  { reqRdy := g.reqRdy, respVal := g.respVal
    request := if g.reqXfer then some { a := i.reqA, b := i.reqB } else none
    response := if g.respXfer then some { value := g.respValue } else none }

/-- The signals of the machine's current cycle, with the spec's resolution of don't-care (D6). -/
def State.signals (s : State) : Signals := settle Config.dontCare s.regs s.inputs

end Sys2Proof.Machine
end

