-- ==== Sys2Proof/Machine/Folded.lean ====
section
/-! DEFINITION. The cycle with the multiplexers and don't-cares folded away, as R132 writes it: no control word, no subtractor wire. -/

namespace Sys2Proof.Machine

/-- What R132 gives for one cycle: next registers, handshake outputs, and `resp_value` in the branches that assign it. -/
structure Folded where
  regs : Regs
  reqRdy : Bool
  respVal : Bool
  respValue : Option Word
deriving DecidableEq, Repr

/-- `res` of R132. -/
def foldedResult (r : Regs) : Word := if r.b = 0 then r.a else r.b

/-- The branch IDLE of R132. -/
def foldedIdle (i : Inputs) : Folded :=
  { regs := { fsm := if i.reqVal then .calc else .idle, a := i.reqA, b := i.reqB },
    reqRdy := true, respVal := false, respValue := none }

/-- The branch CALC, not finished, of R132. -/
def foldedStep (r : Regs) : Folded :=
  { regs := if r.a < r.b then { fsm := .calc, a := r.a, b := r.b - r.a } else { fsm := .calc, a := r.a - r.b, b := r.b },
    reqRdy := false, respVal := false, respValue := none }

/-- The branch CALC, finished, of R132. -/
def foldedFinished (r : Regs) (i : Inputs) : Folded :=
  { regs :=
      if i.respRdy then { fsm := if i.reqVal then .calc else .idle, a := i.reqA, b := i.reqB }
      else { r with fsm := .done },
    reqRdy := i.respRdy, respVal := true, respValue := some (foldedResult r) }

/-- The branch DONE of R132. -/
def foldedDone (r : Regs) (i : Inputs) : Folded :=
  { regs := { r with fsm := if i.respRdy then .idle else .done },
    reqRdy := false, respVal := true, respValue := some (foldedResult r) }

/-- R132. -/
def folded (r : Regs) (i : Inputs) : Folded :=
  match r.fsm with
  | .idle => foldedIdle i
  | .calc => if r.a = 0 ∨ r.b = 0 then foldedFinished r i else foldedStep r
  | .done => foldedDone r i

end Sys2Proof.Machine
end

