-- ==== Sys2Proof/Safety.lean ====
section
/-! DEFINITION. The terms claims use: runs, what the ports showed, the gcd and the step count, the invariant, the duties of the
environment. -/

namespace Sys2Proof.Machine

/-- `k` cycles of the machine lead from `s` to `t`. -/
def runsTo (k : Nat) (s t : State) : Prop := Sys2Proof.core.run k s = .next t

/-- No reset for the next `k` cycles. -/
def noReset (k : Nat) (s : State) : Prop := ∀ j < k, (s.inputAt j).reset = false

/-- The start of a run (R170, R171): IDLE, any A and B, any inputs to come, nothing has crossed the ports. -/
def State.isStart (s : State) : Prop := s.regs.fsm = .idle ∧ s.log = []

/-- The gcd of an operand pair, with gcd(0,0)=0, gcd(a,0)=a, gcd(0,b)=b (R77). -/
def gcdOf (r : Request) : Nat := Nat.gcd r.a.toNat r.b.toNat

/-- The gcd of the registers A and B. -/
def Regs.gcd (r : Regs) : Nat := Nat.gcd r.a.toNat r.b.toNat

/-- `finished` of R16, on the registers. -/
abbrev Regs.isFinished (r : Regs) : Prop := r.a = 0 ∨ r.b = 0

/-- n(a, b) of R135 by its three equations, on fuel. -/
def subStepsFuel : Nat → Nat → Nat → Nat
  | 0, _, _ => 0
  | fuel + 1, a, b =>
    if a = 0 ∨ b = 0 then 0
    else if b ≤ a then 1 + subStepsFuel fuel (a - b) b
    else 1 + subStepsFuel fuel a (b - a)

/-- n(a, b) of R135: the number of subtraction steps; a + b is fuel enough. -/
def subSteps (a b : Nat) : Nat := subStepsFuel (a + b) a b

/-- The sum of the quotients of division-based Euclid on (a, b), on fuel (R135 (i)). -/
def quotientSumFuel : Nat → Nat → Nat → Nat
  | 0, _, _ => 0
  | fuel + 1, a, b => if b = 0 then 0 else a / b + quotientSumFuel fuel b (a % b)

/-- The sum of the quotients of division-based Euclid on (a, b); b + 1 is fuel enough, since the second operand falls each round. -/
def quotientSum (a b : Nat) : Nat := quotientSumFuel (b + 1) a b

/-- A row of R57 as data: the handshake outputs, the control word CW, which ports transfer, the next state. -/
structure KindRow where
  reqRdy : Bool
  respVal : Bool
  cw : BitVec 6
  request : Bool
  response : Bool
  next : Fsm
deriving DecidableEq, Repr

/-- The table of R57, with `o` = ¬is_b_zero and `s` = swap. -/
def kindRow (o s : Bool) : Instr → KindRow
  | .idleWait _ _ _ => ⟨true, false, 0b101000#6, false, false, .idle⟩
  | .idleAccept _ _ _ => ⟨true, false, 0b101000#6, true, false, .calc⟩
  | .subA _ _ => ⟨false, false, 0b110010#6, false, false, .calc⟩
  | .subB _ _ => ⟨false, false, 0b001111#6, false, false, .calc⟩
  | .finStall _ _ => ⟨false, true, 0b0000#4 ++ bit o ++ bit s, false, false, .done⟩
  | .finDrain _ => ⟨true, true, 0b1010#4 ++ bit o ++ bit s, false, true, .idle⟩
  | .finChain _ => ⟨true, true, 0b1010#4 ++ bit o ++ bit s, true, true, .calc⟩
  | .doneStall _ _ _ => ⟨false, true, 0b0000#4 ++ bit o ++ 0b0#1, false, false, .done⟩
  | .doneDrain _ _ _ => ⟨false, true, 0b0000#4 ++ bit o ++ 0b0#1, false, true, .idle⟩

/-- The requests transferred in this run, oldest first: (a_1, b_1), (a_2, b_2), ... of R137. -/
def State.requests (s : State) : List Request := (s.log.filterMap PortCycle.request).reverse

/-- The responses transferred in this run, oldest first: v_1, v_2, ... of R137. -/
def State.responses (s : State) : List Response := (s.log.filterMap PortCycle.response).reverse

/-- One cycle of the port discipline of R41 and R137, seen from outside. `o` is the request accepted and not yet answered. A response
must answer it with its gcd; a request may be accepted only when none is left open. `none` is a breach. -/
def portStep (o : Option Request) (c : PortCycle) : Option (Option Request) :=
  let answered : Option (Option Request) :=
    match c.response, o with
    | none, o => some o
    | some v, some q => if v.value.toNat = gcdOf q then some none else none
    | some _, none => none
  match answered, c.request with
  | none, _ => none
  | some o', none => some o'
  | some none, some q => some (some q)
  | some (some _), some _ => none

/-- The discipline over a whole log (newest first): the open request after it, or a breach. -/
def openRequest : List PortCycle → Option (Option Request)
  | [] => some none
  | c :: older =>
    match openRequest older with
    | none => none
    | some o => portStep o c

/-- The invariant of R134, R137 and R138. The ports have kept their discipline; in IDLE no request is open; in CALC and DONE one is, and
the gcd of A and B is its gcd; in DONE the computation is finished. -/
def State.Inv (s : State) : Prop :=
  match s.regs.fsm with
  | .idle => openRequest s.log = some none
  | .calc => ∃ q, openRequest s.log = some (some q) ∧ s.regs.gcd = gcdOf q
  | .done => (∃ q, openRequest s.log = some (some q) ∧ s.regs.gcd = gcdOf q) ∧ s.regs.isFinished

/-- The producer's duty of R34 over the coming `k` cycle boundaries of a run from `s`: an offer that meets `req_rdy` = 0 is repeated
unchanged in the next cycle. A RESET line has no `rv` (R62) and R34 does not say whether the duty spans one: here its ignored pins count as
an ordinary offer or repeat. DESIGN CHOICE, safe: log entry 19 (every claim with this premise also has `noReset`). -/
def producerKeepsDuty (k : Nat) (s : State) : Prop :=
  ∀ j < k, ∀ t, runsTo j s t → t.inputs.reqVal = true → t.signals.reqRdy = false →
    (t.inputAt 1).reqVal = true ∧ requestOf (t.inputAt 1) = requestOf t.inputs

end Sys2Proof.Machine
end

