-- ==== Sys2Proof/Certificates/Slice0/Obligations.lean ====
section
/-! DEFINITION. The statements for the provers. Each docstring names the rule of spec/ it formalises. A statement that uses a free
value (RESET_A, RESET_B, an unlisted input) holds for every value of it. -/

open Sys2Proof Sys2Proof.Machine

/-! ## Encoding (R50 to R62) -/

/-- R56, R57: encoding and decoding are inverse to each other on all nine kinds and all their `x` bits. -/
def Obligations.CycleKindKeysRoundTrip : Prop :=
  (∀ i : Instr, decode (encode i) = .ok i) ∧ (∀ (k : BitVec 6) (i : Instr), decode k = .ok i → encode i = k)

/-- R57: "The nine K patterns are pairwise disjoint and together cover every K with K[5:4] ≠ 0b11": each legal key decodes, and the one row
of the opcode table that it matches is that of the decoded kind. R58: a key with the reserved state code is refused. -/
def Obligations.EveryLegalKeyMatchesOneRow : Prop :=
  ∀ k : BitVec 6,
    (wfKey k = true → ∃ i, decode k = .ok i ∧
      (opcodeTable.filter (OpcodeRow.matchesKey · k)).map OpcodeRow.mnemonic = [i.mnemonic]) ∧
    (wfKey k = false → decode k = .error .reservedState ∧ opcodeTable.filter (OpcodeRow.matchesKey · k) = [])

/-- Sanity: keys written out from the K column of R57 and from section 3.3 of the test vectors decode to their kinds. -/
def Obligations.WrittenOutKeysDecode : Prop :=
  decode 0b000100 = .ok (.idleWait false true false) ∧ decode 0b000101 = .ok (.idleAccept false true false) ∧
  decode 0b010011 = .ok (.subA true true) ∧ decode 0b010111 = .ok (.subB true true) ∧
  decode 0b011101 = .ok (.finStall true true) ∧ decode 0b011110 = .ok (.finDrain true) ∧
  decode 0b011111 = .ok (.finChain true) ∧ decode 0b101101 = .ok (.doneStall true true true) ∧
  decode 0b101111 = .ok (.doneDrain true true true)

/-- R61: the stimulus word of a line is rv ## rr ## a ## b. Every 34-bit word is the word of exactly one line, the fields stand at bits
33, 32, [31:16] and [15:0], and the example `C 1 15 5 1` is 0x3000F0005. -/
def Obligations.StimulusWordLayout : Prop :=
  (∀ w : BitVec 34, (Inputs.decode w).encode = some w) ∧
  (∀ (i : Inputs) (w : BitVec 34), i.encode = some w →
    Inputs.decode w = i ∧ w.getLsbD 33 = i.reqVal ∧ w.getLsbD 32 = i.respRdy ∧
    w.extractLsb' 16 16 = i.reqA ∧ w.extractLsb' 0 16 = i.reqB) ∧
  (Inputs.line true 15 5 true).encode = some 0x3000F0005#34

/-- R50, R51: packing and unpacking a record are inverse and lose no bit; the packed request has a in [31:16] and b in [15:0], the packed
response is the 16-bit value itself. (The layouts are the spec's decision D9, log entry 9.) -/
def Obligations.RecordPacking : Prop :=
  (∀ q : Request, Request.unpack q.pack = q ∧ q.pack.toNat = q.a.toNat * 65536 + q.b.toNat) ∧
  (∀ w : BitVec 32, (Request.unpack w).pack = w) ∧
  (∀ v : Response, Response.unpack v.pack = v ∧ v.pack = v.value) ∧
  (∀ w : BitVec 16, (Response.unpack w).pack = w)

/-! ## Flags and datapath (R15, R16, R70 to R77) -/

/-- R15: in every state of the machine the three flags are the zero tests and the unsigned comparison of the start-of-cycle A and B. -/
def Obligations.StatusFlagsCompareUnsigned : Prop :=
  ∀ s : State,
    (s.signals.flags.isAZero = true ↔ s.regs.a.toNat = 0) ∧
    (s.signals.flags.isBZero = true ↔ s.regs.b.toNat = 0) ∧
    (s.signals.flags.isALtB = true ↔ s.regs.a.toNat < s.regs.b.toNat)

/-- R16: the condition signals in every state; and the flag combinations (1,1,1), (1,0,0), (0,1,1) cannot occur. -/
def Obligations.ConditionSignals : Prop :=
  ∀ s : State,
    s.signals.finished = (s.signals.flags.isAZero || s.signals.flags.isBZero) ∧
    s.signals.swap = s.signals.flags.isALtB ∧
    s.signals.doSub = !s.signals.flags.isBZero ∧
    ¬(s.signals.flags.isAZero = true ∧ s.signals.flags.isBZero = true ∧ s.signals.flags.isALtB = true) ∧
    ¬(s.signals.flags.isAZero = true ∧ s.signals.flags.isBZero = false ∧ s.signals.flags.isALtB = false) ∧
    ¬(s.signals.flags.isAZero = false ∧ s.signals.flags.isBZero = true ∧ s.signals.flags.isALtB = true)

/-- R71: `sub_out` is (A - B) mod 65536 for A_MINUS_B and for don't-care, (B - A) mod 65536 for B_MINUS_A. (The don't-care clause rests on D6,
log entry 6.) -/
def Obligations.SubtractorIsModulo65536 : Prop :=
  ∀ (dc : Config.DontCare) (c : Control) (r : Regs),
    (c.subSel = .aMinusB → (subOut dc c r).toNat = (r.a.toNat + 65536 - r.b.toNat) % 65536) ∧
    (c.subSel = .bMinusA → (subOut dc c r).toNat = (r.b.toNat + 65536 - r.a.toNat) % 65536) ∧
    (c.subSel = .dc → (subOut Config.dontCare c r).toNat = (r.a.toNat + 65536 - r.b.toNat) % 65536)

/-- R72: a wrapped difference is never loaded. The control logic selects `sub_out` into A only in an unfinished CALC cycle with A ≥ B,
and into B only in one with A < B; the loaded value is the exact difference, and at least 1 in B. -/
def Obligations.LoadedDifferenceNeverWraps : Prop :=
  ∀ (dc : Config.DontCare) (r : Regs) (i : Inputs),
    ((settle dc r i).control.aEn = true ∧ (settle dc r i).control.aSel = .sub →
      r.fsm = .calc ∧ ¬ r.isFinished ∧ r.b.toNat ≤ r.a.toNat ∧ (tick dc r i).a.toNat = r.a.toNat - r.b.toNat) ∧
    ((settle dc r i).control.bEn = true ∧ (settle dc r i).control.bSel = .sub →
      r.fsm = .calc ∧ ¬ r.isFinished ∧ r.a.toNat < r.b.toNat ∧ (tick dc r i).b.toNat = r.b.toNat - r.a.toNat ∧
      1 ≤ (tick dc r i).b.toNat)

/-- R73, R74, R75: each input multiplexer gives the request operand (REQ or don't-care) or the subtractor output (SUB); each operand register
adopts its multiplexer's output when its enable is 1, all 16 bits, whatever `req_val` is, and holds when its enable is 0. (That a don't-care
select gives the request operand rests on R54 and the spec's decision D6, log entry 6.) -/
def Obligations.OperandLoads : Prop :=
  ∀ (dc : Config.DontCare) (c : Control) (r : Regs) (i : Inputs),
    (c.aSel = .req ∨ c.aSel = .dc → aMux dc c r i = i.reqA) ∧ (c.aSel = .sub → aMux dc c r i = subOut dc c r) ∧
    (c.aEn = true → aLoad dc c r i = aMux dc c r i) ∧ (c.aEn = false → aLoad dc c r i = r.a) ∧
    (c.bSel = .req ∨ c.bSel = .dc → bMux dc c r i = i.reqB) ∧ (c.bSel = .sub → bMux dc c r i = subOut dc c r) ∧
    (c.bEn = true → bLoad dc c r i = bMux dc c r i) ∧ (c.bEn = false → bLoad dc c r i = r.b)

/-- R76 (its CALC and DONE part): whenever a response is offered, `resp_value` is A if B is zero and B otherwise, for every resolution of don't-care; when the
computation is finished it is "whichever register is non-zero", or 0 if both are zero. -/
def Obligations.OutputIsTheNonZeroRegister : Prop :=
  ∀ (dc : Config.DontCare) (r : Regs) (i : Inputs), (settle dc r i).respVal = true →
    (settle dc r i).respValue = (if r.b = 0 then r.a else r.b) ∧
    (r.isFinished → (settle dc r i).respValue.toNat = max r.a.toNat r.b.toNat)

/-! ## The control FSM (R91 to R97) -/

/-- R91, R95: the outputs of IDLE, whatever the inputs and the flags are; in every IDLE cycle (with `reset` low) A and B load the payload
pins, with or without a valid request, and the FSM leaves IDLE, for CALC, exactly on a request transfer. -/
def Obligations.IdleOutputsAndTransition : Prop :=
  ∀ s : State, s.regs.fsm = .idle →
    s.signals.reqRdy = true ∧ s.signals.respVal = false ∧
    s.signals.control = { aEn := true, aSel := .req, bEn := true, bSel := .req, outSel := .dc, subSel := .dc } ∧
    (s.inputs.reset = false → ∃ t, step s = .next t ∧ t.regs.a = s.inputs.reqA ∧ t.regs.b = s.inputs.reqB ∧
      t.regs.fsm = (if s.signals.reqXfer = true then .calc else .idle) ∧ s.signals.reqXfer = s.inputs.reqVal)

/-- R92 with R15 and R16: the outputs of CALC, case by case over the numbers in A and B and over `resp_rdy`. -/
def Obligations.CalcOutputs : Prop :=
  ∀ s : State, s.regs.fsm = .calc →
    let g := s.signals
    let out : OutSel := if s.regs.b = 0 then .a else .b
    let sub : SubSel := if s.regs.a.toNat < s.regs.b.toNat then .bMinusA else .aMinusB
    (1 ≤ s.regs.b.toNat ∧ s.regs.b.toNat ≤ s.regs.a.toNat →
      g.reqRdy = false ∧ g.respVal = false ∧ g.control = ⟨true, .sub, false, .dc, out, sub⟩) ∧
    (1 ≤ s.regs.a.toNat ∧ s.regs.a.toNat < s.regs.b.toNat →
      g.reqRdy = false ∧ g.respVal = false ∧ g.control = ⟨false, .dc, true, .sub, out, sub⟩) ∧
    (s.regs.isFinished ∧ s.inputs.respRdy = true →
      g.reqRdy = true ∧ g.respVal = true ∧ g.control = ⟨true, .req, true, .req, out, sub⟩) ∧
    (s.regs.isFinished ∧ s.inputs.respRdy = false →
      g.reqRdy = false ∧ g.respVal = true ∧ g.control = ⟨false, .dc, false, .dc, out, sub⟩)

/-- R93: the outputs of DONE, whatever the handshake inputs are; A and B are held frozen (with `reset` low). -/
def Obligations.DoneOutputs : Prop :=
  ∀ s : State, s.regs.fsm = .done →
    s.signals.reqRdy = false ∧ s.signals.respVal = true ∧
    s.signals.control =
      { aEn := false, aSel := .dc, bEn := false, bSel := .dc, outSel := if s.regs.b = 0 then .a else .b, subSel := .dc } ∧
    (s.inputs.reset = false → ∃ t, step s = .next t ∧ t.regs.a = s.regs.a ∧ t.regs.b = s.regs.b)

/-- Section 3 of 41_control_fsm.md: the next FSM state of a cycle with `reset` low, from each state. Which of two overlapping CALC rows is
taken is the spec's own decision D14 (90_conflicts.md C1, log entry 10). -/
def Obligations.TransitionTable : Prop :=
  ∀ s : State, s.inputs.reset = false → ∃ t, step s = .next t ∧
    (s.regs.fsm = .idle → t.regs.fsm = if s.inputs.reqVal then .calc else .idle) ∧
    (s.regs.fsm = .calc → t.regs.fsm =
      if s.regs.a = 0 ∨ s.regs.b = 0 then
        (if s.inputs.respRdy then (if s.inputs.reqVal then .calc else .idle) else .done)
      else .calc) ∧
    (s.regs.fsm = .done → t.regs.fsm = if s.inputs.respRdy then .idle else .done)

/-- R57: in every state the cycle kind that the key selects has the handshake outputs, the control word, the transfers and the next state
of its row. (The control word's don't-care bits rest on the spec's decision D6, log entry 6; the FIN_DRAIN row's next state IDLE rests on its
decision D14, log entry 10, unsafe.) -/
def Obligations.SignalsFollowTheKindTable : Prop :=
  ∀ (s : State) (i : Instr), decode s.key = .ok i →
    (KindRow.mk s.signals.reqRdy s.signals.respVal (s.signals.control.word Config.dontCare) s.signals.reqXfer s.signals.respXfer
      (nextFsm s.regs s.inputs s.signals)) = kindRow s.signals.doSub s.signals.swap i

/-- R57: which kind each condition selects, on the numbers in A and B. -/
def Obligations.KindSelection : Prop :=
  ∀ s : State,
    let fin := (compare s.regs).finished
    let sw := (compare s.regs).swap
    let rv := s.inputs.reqVal
    let rr := s.inputs.respRdy
    (s.regs.fsm = .idle ∧ rv = false → decode s.key = .ok (.idleWait fin sw rr)) ∧
    (s.regs.fsm = .idle ∧ rv = true → decode s.key = .ok (.idleAccept fin sw rr)) ∧
    (s.regs.fsm = .calc ∧ 1 ≤ s.regs.b.toNat ∧ s.regs.b.toNat ≤ s.regs.a.toNat → decode s.key = .ok (.subA rr rv)) ∧
    (s.regs.fsm = .calc ∧ 1 ≤ s.regs.a.toNat ∧ s.regs.a.toNat < s.regs.b.toNat → decode s.key = .ok (.subB rr rv)) ∧
    (s.regs.fsm = .calc ∧ s.regs.isFinished ∧ rr = false → decode s.key = .ok (.finStall sw rv)) ∧
    (s.regs.fsm = .calc ∧ s.regs.isFinished ∧ rr = true ∧ rv = false → decode s.key = .ok (.finDrain sw)) ∧
    (s.regs.fsm = .calc ∧ s.regs.isFinished ∧ rr = true ∧ rv = true → decode s.key = .ok (.finChain sw)) ∧
    (s.regs.fsm = .done ∧ rr = false → decode s.key = .ok (.doneStall fin sw rv)) ∧
    (s.regs.fsm = .done ∧ rr = true → decode s.key = .ok (.doneDrain fin sw rv))

/-! ## The nine cycle kinds (R98 to R106): each runs, with its whole effect and its whole frame

The next state is written out field by field: the three registers, the used-up input vector, and what crossed the ports. -/

/-- R98: IDLE_WAIT loads both operands from the pins, stays in IDLE, transfers nothing. -/
def Obligations.IdleWaitCycle : Prop :=
  ∀ (s : State) (fin sw rr : Bool), exec (.idleWait fin sw rr) s = .next
    { regs := { fsm := .idle, a := s.inputs.reqA, b := s.inputs.reqB }, stim := s.stim.tail, cycle := s.cycle + 1,
      log := { reqRdy := true, respVal := false, request := none, response := none } :: s.log }

/-- R99: IDLE_ACCEPT loads the transferred request and goes to CALC. -/
def Obligations.IdleAcceptCycle : Prop :=
  ∀ (s : State) (fin sw rr : Bool), exec (.idleAccept fin sw rr) s = .next
    { regs := { fsm := .calc, a := s.inputs.reqA, b := s.inputs.reqB }, stim := s.stim.tail, cycle := s.cycle + 1,
      log := { reqRdy := true, respVal := false, request := some { a := s.inputs.reqA, b := s.inputs.reqB }, response := none } :: s.log }

/-- R100: SUB_A subtracts B from A, keeps B, stays in CALC, transfers nothing. -/
def Obligations.SubACycle : Prop :=
  ∀ (s : State) (rr rv : Bool), exec (.subA rr rv) s = .next
    { regs := { fsm := .calc, a := s.regs.a - s.regs.b, b := s.regs.b }, stim := s.stim.tail, cycle := s.cycle + 1,
      log := { reqRdy := false, respVal := false, request := none, response := none } :: s.log }

/-- R101: SUB_B subtracts A from B, keeps A, stays in CALC, transfers nothing. -/
def Obligations.SubBCycle : Prop :=
  ∀ (s : State) (rr rv : Bool), exec (.subB rr rv) s = .next
    { regs := { fsm := .calc, a := s.regs.a, b := s.regs.b - s.regs.a }, stim := s.stim.tail, cycle := s.cycle + 1,
      log := { reqRdy := false, respVal := false, request := none, response := none } :: s.log }

/-- R102: FIN_STALL offers the result, keeps A and B, goes to DONE. -/
def Obligations.FinStallCycle : Prop :=
  ∀ (s : State) (sw rv : Bool), exec (.finStall sw rv) s = .next
    { regs := { fsm := .done, a := s.regs.a, b := s.regs.b }, stim := s.stim.tail, cycle := s.cycle + 1,
      log := { reqRdy := false, respVal := true, request := none, response := none } :: s.log }

/-- R103: FIN_DRAIN delivers the result of the old A and B, loads both operands from the pins, goes to IDLE. (The next state
IDLE is the spec's decision D14, the first matching row of R96; log entry 10, unsafe.) -/
def Obligations.FinDrainCycle : Prop :=
  ∀ (s : State) (sw : Bool), exec (.finDrain sw) s = .next
    { regs := { fsm := .idle, a := s.inputs.reqA, b := s.inputs.reqB }, stim := s.stim.tail, cycle := s.cycle + 1,
      log := { reqRdy := true, respVal := true, request := none,
               response := some { value := if s.regs.b = 0 then s.regs.a else s.regs.b } } :: s.log }

/-- R104: FIN_CHAIN delivers the result of the old A and B and accepts the next request in the same cycle, staying in CALC. -/
def Obligations.FinChainCycle : Prop :=
  ∀ (s : State) (sw : Bool), exec (.finChain sw) s = .next
    { regs := { fsm := .calc, a := s.inputs.reqA, b := s.inputs.reqB }, stim := s.stim.tail, cycle := s.cycle + 1,
      log := { reqRdy := true, respVal := true, request := some { a := s.inputs.reqA, b := s.inputs.reqB },
               response := some { value := if s.regs.b = 0 then s.regs.a else s.regs.b } } :: s.log }

/-- R105: DONE_STALL offers the result, keeps A and B, stays in DONE. -/
def Obligations.DoneStallCycle : Prop :=
  ∀ (s : State) (fin sw rv : Bool), exec (.doneStall fin sw rv) s = .next
    { regs := { fsm := .done, a := s.regs.a, b := s.regs.b }, stim := s.stim.tail, cycle := s.cycle + 1,
      log := { reqRdy := false, respVal := true, request := none, response := none } :: s.log }

/-- R106: DONE_DRAIN delivers the result, keeps A and B, goes to IDLE, accepts no request. -/
def Obligations.DoneDrainCycle : Prop :=
  ∀ (s : State) (fin sw rv : Bool), exec (.doneDrain fin sw rv) s = .next
    { regs := { fsm := .idle, a := s.regs.a, b := s.regs.b }, stim := s.stim.tail, cycle := s.cycle + 1,
      log := { reqRdy := false, respVal := true, request := none,
               response := some { value := if s.regs.b = 0 then s.regs.a else s.regs.b } } :: s.log }

/-! ## The step (R131, R132, R139, R150, R153, R172) -/

/-- A step with `reset` low runs the cycle kind that the key of R56 decodes to; the key's fields are the FSM state's code, `finished`,
`swap`, `resp_rdy` and `req_val`. -/
def Obligations.StepRunsTheSelectedKind : Prop :=
  ∀ s : State,
    (∀ i, s.inputs.reset = false → decode s.key = .ok i → step s = exec i s) ∧
    s.key.extractLsb' 4 2 = s.regs.fsm.code ∧
    (s.key.getLsbD 3 = true ↔ s.regs.a.toNat = 0 ∨ s.regs.b.toNat = 0) ∧
    (s.key.getLsbD 2 = true ↔ s.regs.a.toNat < s.regs.b.toNat) ∧
    s.key.getLsbD 1 = s.inputs.respRdy ∧ s.key.getLsbD 0 = s.inputs.reqVal

/-- R131: a step with `reset` low is the full cycle function, for every resolution of the don't-care selects: same next registers, same
handshake outputs, same transfers. The nine hand-written kinds and the per-state equations are the same machine. (The transition from
a finished, delivered CALC cycle without a request is the spec's decision D14, log entry 10, unsafe.) -/
def Obligations.StepIsTheCycleFunction : Prop :=
  ∀ (dc : Config.DontCare) (s : State), s.inputs.reset = false →
    step s = .next { regs := tick dc s.regs s.inputs, stim := s.stim.tail, cycle := s.cycle + 1,
                     log := portsOf dc s.regs s.inputs :: s.log }

/-- R132: the folded cycle equals the full one on state, A, B, `req_rdy`, `resp_val`, and on `resp_value` whenever `resp_val` = 1, for every
resolution of the don't-care selects. -/
def Obligations.FoldedFormAgrees : Prop :=
  ∀ (dc : Config.DontCare) (r : Regs) (i : Inputs),
    (folded r i).regs = tick dc r i ∧
    (folded r i).reqRdy = (settle dc r i).reqRdy ∧
    (folded r i).respVal = (settle dc r i).respVal ∧
    ((settle dc r i).respVal = true → (folded r i).respValue = some (settle dc r i).respValue)

/-- R150, R139: from every state and with every input the step answers a next state; the unit never faults, stops or refuses. -/
def Obligations.StepNeverStops : Prop :=
  ∀ s : State, ∃ t, step s = .next t

/-- R172: a cycle with `reset` = 1 goes to IDLE from every state whatever the other pins show, and transfers nothing (the log of the new run is
empty: the model's choice, log entry 5). A and B take free values, of which nothing is known: the statement holds for any. Synchronous
reset is the spec's decision D2. -/
def Obligations.ResetCycleStartsANewRun : Prop :=
  ∀ s : State, s.inputs.reset = true →
    ∃ a b : Word, step s = .next
      { regs := { fsm := .idle, a := a, b := b }, stim := s.stim.tail, cycle := s.cycle + 1, log := [] }

/-- R20, R170, R173: after reset the FSM is in IDLE with A = RESET_A and B = RESET_B (free values: the spec's D3, log entry 2); in that first
cycle, whatever the inputs to come are, `req_rdy` = 1 and `resp_val` = 0, and the cycle kind is IDLE_ACCEPT if `req_val` = 1 and IDLE_WAIT
otherwise. -/
def Obligations.FirstCycleAfterReset : Prop :=
  State.reset.regs = { fsm := .idle, a := Config.resetA, b := Config.resetB } ∧
  ∀ stim : List Inputs,
    let s : State := { State.reset with stim := stim }
    s.signals.reqRdy = true ∧ s.signals.respVal = false ∧
    (s.inputs.reqVal = true → ∃ x y z, decode s.key = .ok (.idleAccept x y z)) ∧
    (s.inputs.reqVal = false → ∃ x y z, decode s.key = .ok (.idleWait x y z))

/-- R133: a cycle (with `reset` low) performs one step of subtractive Euclid in CALC with neither register zero, and no other cycle performs
one: A and B hold, or both load the pins. In a finished CALC cycle the non-zero register is the gcd of the two. -/
def Obligations.OneSubtractionStepPerCycle : Prop :=
  ∀ s : State, s.inputs.reset = false → ∃ t, step s = .next t ∧
    (s.regs.fsm = .calc ∧ ¬ s.regs.isFinished → t.regs.fsm = .calc ∧
      (s.regs.a.toNat < s.regs.b.toNat → t.regs.a = s.regs.a ∧ t.regs.b.toNat = s.regs.b.toNat - s.regs.a.toNat) ∧
      (s.regs.b.toNat ≤ s.regs.a.toNat → t.regs.b = s.regs.b ∧ t.regs.a.toNat = s.regs.a.toNat - s.regs.b.toNat)) ∧
    (¬ (s.regs.fsm = .calc ∧ ¬ s.regs.isFinished) →
      (t.regs.a = s.regs.a ∧ t.regs.b = s.regs.b) ∨ (t.regs.a = s.inputs.reqA ∧ t.regs.b = s.inputs.reqB)) ∧
    (s.regs.fsm = .calc ∧ s.regs.isFinished → max s.regs.a.toNat s.regs.b.toNat = Nat.gcd s.regs.a.toNat s.regs.b.toNat)

/-! ## The ports (R33 to R47, R151) -/

/-- R33: a step with `reset` low notes a request transfer exactly when `req_val` and `req_rdy` are both 1 and a response transfer exactly
when `resp_val` and `resp_rdy` are both 1; each moves its whole record. -/
def Obligations.TransfersNeedValidAndReady : Prop :=
  ∀ s : State, s.inputs.reset = false → ∃ t, step s = .next t ∧ ∃ p, t.log = p :: s.log ∧
    p.reqRdy = s.signals.reqRdy ∧ p.respVal = s.signals.respVal ∧
    p.request = (if s.inputs.reqVal = true ∧ s.signals.reqRdy = true then some { a := s.inputs.reqA, b := s.inputs.reqB } else none) ∧
    p.response = (if s.signals.respVal = true ∧ s.inputs.respRdy = true then some { value := s.signals.respValue } else none)

/-- R35: once offered and not taken, a response stays offered with the same value, up to and including the first cycle in which the
consumer is ready. -/
def Obligations.ResponseIsHeldUntilTaken : Prop :=
  ∀ (k : Nat) (s : State), s.signals.respVal = true → noReset k s → (∀ j < k, (s.inputAt j).respRdy = false) →
    ∃ t, runsTo k s t ∧ t.signals.respVal = true ∧ t.signals.respValue = s.signals.respValue

/-- R47 and R36: of the same-cycle inputs only `resp_rdy` reaches an output, only `req_rdy`, and only in CALC, where
`req_rdy = finished ∧ resp_rdy`; `resp_val` and `resp_value` depend on no input. (The clause on `resp_value` covers cycles with
`resp_val` = 0 too, where the wire means nothing: the spec's decision D15, log entry 11.) -/
def Obligations.OutputsIgnoreTheRequestPort : Prop :=
  ∀ (dc : Config.DontCare) (r : Regs) (i i' : Inputs),
    (settle dc r i).respVal = (settle dc r i').respVal ∧
    (settle dc r i).respValue = (settle dc r i').respValue ∧
    (r.fsm ≠ .calc → (settle dc r i).reqRdy = (settle dc r i').reqRdy) ∧
    (r.fsm = .calc → (settle dc r i).reqRdy = ((compare r).finished && i.respRdy))

/-- R37: nothing transferred is used twice. After a cycle that delivered a response the unit is in IDLE, offering nothing, or in CALC with
newly loaded operands; a cycle that accepted a request has loaded exactly that pair, once, and computes on it next. -/
def Obligations.TransferredDataIsNotReused : Prop :=
  ∀ s : State, s.inputs.reset = false → ∃ t, step s = .next t ∧
    (s.signals.respXfer = true →
      (t.regs.fsm = .idle ∧ t.signals.respVal = false) ∨
      (s.signals.reqXfer = true ∧ t.regs = { fsm := .calc, a := s.inputs.reqA, b := s.inputs.reqB })) ∧
    (s.signals.reqXfer = true → t.regs = { fsm := .calc, a := s.inputs.reqA, b := s.inputs.reqB })

/-- R38, R151, R153 (d): a request that meets `req_rdy` = 0 leaves no trace: whatever the request port shows in such a cycle, the machine goes to
the same state. -/
def Obligations.RefusedRequestLeavesNoTrace : Prop :=
  ∀ (s : State) (i i' : Inputs) (rest : List Inputs), i.reset = false → i'.reset = false → i.respRdy = i'.respRdy →
    ({ s with stim := i :: rest } : State).signals.reqRdy = false →
    step { s with stim := i :: rest } = step { s with stim := i' :: rest }

/-- R20, R38: IDLE forgets A and B: two machines in IDLE that differ only in them (RESET_A, RESET_B, an old result, junk from the pins) are
the same machine after one cycle with `reset` low, and ever after. -/
def Obligations.IdleForgetsTheRegisters : Prop :=
  ∀ (s : State) (a b : Word) (k : Nat), s.regs.fsm = .idle → s.inputs.reset = false →
    ∃ t, runsTo (k + 1) s t ∧ runsTo (k + 1) { s with regs := { s.regs with a := a, b := b } } t

/-- R38, R39: the payload under `req_val` = 0 is loaded in some cycles and never seen: two machines whose current inputs differ only in it
are the same machine after two cycles with `reset` low, and ever after. (Rests on the spec's decision D14, log entry 10, unsafe.) -/
def Obligations.InvalidPayloadIsNeverSeen : Prop :=
  ∀ (s : State) (i : Inputs) (a b : Word) (rest : List Inputs) (k : Nat), i.reqVal = false → noReset 2 { s with stim := i :: rest } →
    ∃ t, runsTo (k + 2) { s with stim := i :: rest } t ∧ runsTo (k + 2) { s with stim := { i with reqA := a, reqB := b } :: rest } t

/-- R11, R45: the next registers and what crosses the ports are a function of the three registers and this cycle's inputs alone: neither
the log nor the cycle number nor later inputs have a part in it. -/
def Obligations.CycleDependsOnRegistersAndInputsOnly : Prop :=
  ∀ s s' : State, s.regs = s'.regs → s.inputs = s'.inputs → s.inputs.reset = false →
    ∃ t t', step s = .next t ∧ step s' = .next t' ∧ t.regs = t'.regs ∧ t.log.head? = t'.log.head?

/-- R153 (c): the transfer signals `req_xfer` and `resp_xfer` of R33 are both 1 exactly when the key selects the cycle kind FIN_CHAIN. (The
signals are wires: in a cycle with `reset` = 1 no transfer is deemed to occur whatever they show, R172.) -/
def Obligations.BothPortsTransferOnlyInFinChain : Prop :=
  ∀ s : State, (s.signals.reqXfer = true ∧ s.signals.respXfer = true) ↔ ∃ sw, decode s.key = .ok (.finChain sw)

/-- R34, R151: if the producer keeps its duty, the pair that is finally accepted is the pair it first offered. -/
def Obligations.DutyDeliversTheOfferedPair : Prop :=
  ∀ (k : Nat) (s t : State), noReset (k + 1) s → s.inputs.reqVal = true → producerKeepsDuty k s →
    (∀ j < k, ∀ u, runsTo j s u → u.signals.reqRdy = false) → runsTo k s t → t.signals.reqRdy = true →
    ∃ t', step t = .next t' ∧ t'.log.head?.map PortCycle.request = some (some { a := s.inputs.reqA, b := s.inputs.reqB })

/-! ## What the unit computes (R77, R134 to R138) -/

/-- R134, R137, R138: every step, from every state that has it, keeps the invariant: the ports have kept their discipline, the gcd of A and
B is that of the open request, and DONE is finished. (Rests on the spec's decision D14, log entry 10, unsafe.) -/
def Obligations.StepKeepsTheInvariant : Prop :=
  ∀ s t : State, s.Inv → step s = .next t → t.Inv

/-- The invariant holds after reset and, for every A and B and all inputs to come, at the start of a run. -/
def Obligations.RunsStartInTheInvariant : Prop :=
  State.reset.isStart ∧ ∀ s : State, s.isStart → s.Inv

/-- R138: from the start of a run and under any input sequence, DONE implies that A or B is zero. (Rests on the spec's decision D14, log
entry 10, unsafe.) -/
def Obligations.DoneImpliesFinished : Prop :=
  ∀ (k : Nat) (s t : State), s.isStart → runsTo k s t → t.regs.fsm = .done → t.regs.isFinished

/-- R134: from the cycle after a request transfer of (a, b) up to and including the cycle of the matching response transfer, the unit is in
CALC or DONE and gcd(A, B) = gcd(a, b). (The runs are those without a reset in the span: a reset loses the computation, R172.) -/
def Obligations.GcdIsKeptUntilTheResponse : Prop :=
  ∀ (j : Nat) (s : State), s.inputs.reqVal = true → s.signals.reqRdy = true → noReset (j + 1) s →
    (∀ k < j, ∀ u, runsTo (k + 1) s u → u.signals.respXfer = false) →
    ∃ t, runsTo (j + 1) s t ∧ t.regs.fsm ≠ .idle ∧
      Nat.gcd t.regs.a.toNat t.regs.b.toNat = Nat.gcd s.inputs.reqA.toNat s.inputs.reqB.toNat

/-- R136, R77: under the invariant an offered response is the gcd of the open request, with gcd(0,0)=0, gcd(a,0)=a, gcd(0,b)=b, and never
exceeds the larger operand. -/
def Obligations.OfferedResponseIsTheGcd : Prop :=
  ∀ s : State, s.Inv → s.signals.respVal = true →
    ∃ q, openRequest s.log = some (some q) ∧ s.signals.respValue.toNat = Nat.gcd q.a.toNat q.b.toNat ∧
      s.signals.respValue.toNat ≤ max q.a.toNat q.b.toNat

/-- R137, R41: in every run, v_k = gcd(a_k, b_k) for every response; at every cycle boundary the responses so far are the requests so far or
one fewer, and a cycle's response answers a request of an earlier cycle. (Rests on the spec's decision D14, log
entry 10, unsafe.) -/
def Obligations.ResponsesAnswerRequestsInOrder : Prop :=
  ∀ (k : Nat) (s t : State), s.isStart → runsTo k s t →
    (∀ (n : Nat) (v : Response), t.responses[n]? = some v → ∃ q : Request, t.requests[n]? = some q ∧ v.value.toNat = Nat.gcd q.a.toNat q.b.toNat) ∧
    t.responses.length ≤ t.requests.length ∧ t.requests.length ≤ t.responses.length + 1 ∧
    ∀ t', step t = .next t' → t'.responses.length ≤ t.requests.length

/-! ## How long it takes (R135, R178, R180) -/

/-- R135: n(a, b) satisfies its three equations, is the sum of the quotients of division-based Euclid when a, b ≥ 1, is at most max(a, b), and
reaches the bound at the three pairs named. -/
def Obligations.SubtractionStepCount : Prop :=
  (∀ a b, a = 0 ∨ b = 0 → subSteps a b = 0) ∧
  (∀ a b, 1 ≤ b → b ≤ a → subSteps a b = 1 + subSteps (a - b) b) ∧
  (∀ a b, 1 ≤ a → a < b → subSteps a b = 1 + subSteps a (b - a)) ∧
  (∀ a b, 1 ≤ a → 1 ≤ b → subSteps a b = quotientSum a b) ∧
  (∀ a b, subSteps a b ≤ max a b) ∧
  subSteps 1 65535 = 65535 ∧ subSteps 65535 1 = 65535 ∧ subSteps 65535 65534 = 65535

/-- R135, R155: from any CALC state, whatever the inputs do short of reset, the unit spends exactly n(A, B) cycles on subtraction steps with
nothing crossing the ports, and is then in CALC and finished, with the gcd kept; with both operands at least 1 it ends with A = 0 and
the result in B. -/
def Obligations.ComputationTakesItsSteps : Prop :=
  ∀ s : State, s.regs.fsm = .calc → noReset (subSteps s.regs.a.toNat s.regs.b.toNat) s →
    ∃ t, runsTo (subSteps s.regs.a.toNat s.regs.b.toNat) s t ∧ t.regs.fsm = .calc ∧ t.regs.isFinished ∧
      t.regs.gcd = s.regs.gcd ∧
      t.log = List.replicate (subSteps s.regs.a.toNat s.regs.b.toNat)
        { reqRdy := false, respVal := false, request := none, response := none } ++ s.log ∧
      (1 ≤ s.regs.a.toNat → 1 ≤ s.regs.b.toNat → t.regs.a = 0 ∧ t.regs.b.toNat = s.regs.gcd)

/-- R136, R180: from any cycle that accepts a request (a, b), in IDLE or in FIN_CHAIN: n(a, b) silent cycles follow, then the response is
offered in the next cycle, held through m cycles in which the consumer is not ready, and delivered in the first in which it is; its
value is gcd(a, b). (That the consumer is ready at last is the premise FAIR_SINK of D18, log entry 14; the cycle counts are R180's, which
the spec derives.) -/
def Obligations.AcceptedRequestIsAnsweredByItsGcd : Prop :=
  ∀ (s : State) (m : Nat),
    let a := s.inputs.reqA.toNat
    let b := s.inputs.reqB.toNat
    let n := subSteps a b
    s.inputs.reqVal = true → s.signals.reqRdy = true → noReset (n + m + 2) s →
    (∀ j < m, (s.inputAt (n + 1 + j)).respRdy = false) → (s.inputAt (n + 1 + m)).respRdy = true →
    ∃ t p v p0, runsTo (n + m + 2) s t ∧
      t.log = p :: (List.replicate m { reqRdy := false, respVal := true, request := none, response := none } ++
        (List.replicate n { reqRdy := false, respVal := false, request := none, response := none } ++ p0 :: s.log)) ∧
      p0.request = some { a := s.inputs.reqA, b := s.inputs.reqB } ∧
      p.respVal = true ∧ p.response = some v ∧ v.value.toNat = Nat.gcd a b

/-- R178: the unit by itself reaches `resp_val` = 1 within 65536 cycles of a request transfer. -/
def Obligations.ResponseIsOfferedInBoundedTime : Prop :=
  ∀ s : State, s.inputs.reqVal = true → s.signals.reqRdy = true → noReset 65536 s →
    ∃ k t, 1 ≤ k ∧ k ≤ 65536 ∧ runsTo k s t ∧ t.signals.respVal = true

/-- R97: the FSM leaves DONE exactly on a response transfer, always to IDLE, accepting no request in that cycle (a waiting request can be
accepted in the IDLE cycle that follows); while the consumer is not ready the unit stays in DONE for any number of cycles, keeps A and B,
offers the response and refuses requests. -/
def Obligations.DoneStallsWithoutLoss : Prop :=
  (∀ s : State, s.regs.fsm = .done → s.inputs.reset = false → s.inputs.respRdy = true →
    ∃ t p, step s = .next t ∧ t.regs = { s.regs with fsm := .idle } ∧ t.log = p :: s.log ∧ p.request = none ∧
      p.response.isSome = true ∧ t.signals.reqRdy = true) ∧
  (∀ (k : Nat) (s : State), s.regs.fsm = .done → noReset k s → (∀ j < k, (s.inputAt j).respRdy = false) →
    ∃ t, runsTo k s t ∧ t.regs = s.regs ∧
      t.log = List.replicate k { reqRdy := false, respVal := true, request := none, response := none } ++ s.log)

/-- R180: with a producer that always has a request and a consumer that is always ready, the unit never leaves CALC after the first
request. -/
def Obligations.FullThroughputNeverLeavesCalc : Prop :=
  ∀ (k : Nat) (s : State), s.regs.fsm = .calc → noReset k s →
    (∀ j < k, (s.inputAt j).reqVal = true ∧ (s.inputAt j).respRdy = true) →
    ∃ t, runsTo k s t ∧ t.regs.fsm = .calc
end

