-- ==== Sys2Proof/Laws/Encoding.lean ====
section
/-! SUPPORT. The bits of the packed layouts. -/

namespace Sys2Proof

/-- Bit `i` of a packed request record: b below bit 16, a above. -/
theorem Request.getLsbD_pack (q : Request) (i : Nat) :
    q.pack.getLsbD i = if i < 16 then q.b.getLsbD i else q.a.getLsbD (i - 16) := by
  have h := BitVec.getLsbD_append (x := q.a) (y := q.b) (i := i)
  exact h

/-- Bit `i` of a stimulus word: the request record below bit 32, resp_rdy at 32, req_val at 33. -/
theorem getLsbD_stimulusWord (rv rr : Bool) (q : Request) (i : Nat) :
    (stimulusWord rv rr q).getLsbD i =
      if i < 32 then q.pack.getLsbD i else if i = 32 then rr else if i = 33 then rv else false := by
  have h := BitVec.getLsbD_append (x := bit rv ++ bit rr) (y := q.pack) (i := i)
  refine Eq.trans h ?_
  by_cases hi : i < 32
  · simp [hi]
  · rw [if_neg hi, if_neg hi]
    by_cases h0 : i = 32
    · subst h0; cases rv <;> cases rr <;> rfl
    · by_cases h1 : i = 33
      · subst h1; cases rv <;> cases rr <;> rfl
      · rw [if_neg h0, if_neg h1]
        exact BitVec.getLsbD_of_ge _ _ (by omega)

/-- The fields of an unpacked request record are its two half words. -/
theorem Request.unpack_getLsbD (w : BitVec 32) (i : Nat) (h : i < 16) :
    (Request.unpack w).a.getLsbD i = w.getLsbD (16 + i) ∧ (Request.unpack w).b.getLsbD i = w.getLsbD i := by
  simp [Request.unpack, h]

end Sys2Proof
end

