-- ==== Sys2Proof/Laws/State.lean ====
section
/-! SUPPORT. One lemma per field per update of the state, so that no proof unfolds a record update. -/

namespace Sys2Proof.Machine

variable (s : State) (r : Regs) (p : PortCycle) (k : Issue) (dc : Config.DontCare) (c : Control) (n : Fsm) (i : Inputs)

@[simp] theorem State.endCycle_regs : (s.endCycle r p).regs = r := rfl
@[simp] theorem State.endCycle_stim : (s.endCycle r p).stim = s.stim.tail := rfl
@[simp] theorem State.endCycle_cycle : (s.endCycle r p).cycle = s.cycle + 1 := rfl
@[simp] theorem State.endCycle_log : (s.endCycle r p).log = p :: s.log := rfl

@[simp] theorem State.resetCycle_fsm : s.resetCycle.regs.fsm = .idle := rfl
@[simp] theorem State.resetCycle_a : s.resetCycle.regs.a = Config.afterResetA s.cycle s.regs.fsm s.regs.a s.regs.b s.inputs := rfl
@[simp] theorem State.resetCycle_b : s.resetCycle.regs.b = Config.afterResetB s.cycle s.regs.fsm s.regs.a s.regs.b s.inputs := rfl
@[simp] theorem State.resetCycle_stim : s.resetCycle.stim = s.stim.tail := rfl
@[simp] theorem State.resetCycle_cycle : s.resetCycle.cycle = s.cycle + 1 := rfl
@[simp] theorem State.resetCycle_log : s.resetCycle.log = [] := rfl

@[simp] theorem commitRegs_fsm : (commitRegs dc c n r i).fsm = n := rfl
@[simp] theorem commitRegs_a : (commitRegs dc c n r i).a = aLoad dc c r i := rfl
@[simp] theorem commitRegs_b : (commitRegs dc c n r i).b = bLoad dc c r i := rfl

@[simp] theorem State.runCycle_regs :
    (s.runCycle k).regs = commitRegs Config.dontCare k.control k.next s.regs s.inputs := rfl
@[simp] theorem State.runCycle_stim : (s.runCycle k).stim = s.stim.tail := rfl
@[simp] theorem State.runCycle_cycle : (s.runCycle k).cycle = s.cycle + 1 := rfl

@[simp] theorem State.reset_fsm : State.reset.regs.fsm = .idle := rfl
@[simp] theorem State.reset_a : State.reset.regs.a = Config.resetA := rfl
@[simp] theorem State.reset_b : State.reset.regs.b = Config.resetB := rfl
@[simp] theorem State.reset_stim : State.reset.stim = [] := rfl
@[simp] theorem State.reset_cycle : State.reset.cycle = 0 := rfl
@[simp] theorem State.reset_log : State.reset.log = [] := rfl

end Sys2Proof.Machine
end

