-- ==== Sys2Proof/Laws/Ops.lean ====
section
/-! SUPPORT. What each shared operation does: inputs, flags, multiplexers, register loads. -/

namespace Sys2Proof.Machine

/-! ## Inputs -/

/-- The input vector of the current cycle is the first pending one, if one is pending. -/
theorem State.inputs_cons {s : State} {i : Inputs} {rest : List Inputs} (h : s.stim = i :: rest) : s.inputs = i := by
  simp [State.inputs, State.inputAt, h]

@[simp] theorem State.inputs_mk_cons (r : Regs) (i : Inputs) (rest : List Inputs) (n : Nat) (l : List PortCycle) :
    (State.mk r (i :: rest) n l).inputs = i := rfl

/-- The inputs to come are a matter of the pending list and the cycle number, not of the registers or the log. -/
theorem State.inputAt_congr {s t : State} (hs : t.stim = s.stim) (hc : t.cycle = s.cycle) (k : Nat) :
    t.inputAt k = s.inputAt k := by simp only [State.inputAt, hs, hc]

/-- After a cycle every pending input vector is one cycle nearer, the free ones included. -/
theorem State.inputAt_advance (s t : State) (hs : t.stim = s.stim.tail) (hc : t.cycle = s.cycle + 1) (k : Nat) :
    t.inputAt k = s.inputAt (k + 1) := by
  have hi : s.cycle + 1 + k = s.cycle + (k + 1) := by omega
  simp only [State.inputAt, hs, hc, List.getElem?_tail, hi]

@[simp] theorem State.inputAt_endCycle (s : State) (r : Regs) (p : PortCycle) (k : Nat) :
    (s.endCycle r p).inputAt k = s.inputAt (k + 1) := State.inputAt_advance _ _ rfl rfl k

@[simp] theorem State.inputAt_resetCycle (s : State) (k : Nat) : s.resetCycle.inputAt k = s.inputAt (k + 1) :=
  State.inputAt_advance _ _ rfl rfl k

@[simp] theorem State.inputAt_zero (s : State) : s.inputAt 0 = s.inputs := rfl

/-! ## Words as numbers -/

theorem word_eq_zero (x : Word) : x = 0 ↔ x.toNat = 0 :=
  ⟨fun h => by rw [h]; rfl, fun h => BitVec.eq_of_toNat_eq h⟩

theorem word_lt (x y : Word) : x < y ↔ x.toNat < y.toNat := BitVec.lt_def

/-! ## Flags -/

@[simp] theorem compare_isAZero (r : Regs) : ((compare r).isAZero = true) ↔ r.a = 0 := by simp [compare]
@[simp] theorem compare_isBZero (r : Regs) : ((compare r).isBZero = true) ↔ r.b = 0 := by simp [compare]
@[simp] theorem compare_isALtB (r : Regs) : ((compare r).isALtB = true) ↔ r.a < r.b := by
  simp [compare, BitVec.ult_iff_lt]

/-- `finished` is the predicate on the registers that claims use. -/
theorem compare_finished (r : Regs) : ((compare r).finished = true) ↔ r.isFinished := by
  simp [Flags.finished, Regs.isFinished]

theorem compare_swap (r : Regs) : ((compare r).swap = true) ↔ r.a < r.b := by simp [Flags.swap]

/-- `finished` as a decision, for rewriting. -/
theorem compare_finished_eq (r : Regs) : (compare r).finished = decide (r.a = 0 ∨ r.b = 0) := by
  rw [Bool.eq_iff_iff, compare_finished, decide_eq_true_iff]

/-- `swap` as a decision, for rewriting. -/
theorem compare_swap_eq (r : Regs) : (compare r).swap = decide (r.a < r.b) := by
  rw [Bool.eq_iff_iff, compare_swap, decide_eq_true_iff]

/-- `is_b_zero` as a decision, for rewriting. -/
theorem compare_isBZero_eq (r : Regs) : (compare r).isBZero = decide (r.b = 0) := rfl

/-! ## Multiplexers and loads -/

@[simp] theorem mux2_false (x y : Word) : mux2 false x y = x := rfl
@[simp] theorem mux2_true (x y : Word) : mux2 true x y = y := rfl

/-- A difference that does not wrap is the difference of the numbers. -/
theorem sub16_toNat_of_le {x y : Word} (h : y ≤ x) : (sub16 x y).toNat = x.toNat - y.toNat := by
  simp only [sub16, BitVec.le_def] at *
  have := x.isLt
  rw [BitVec.toNat_sub_of_le (by simpa [BitVec.le_def] using h)]

/-- The value on `resp_value` when `out_sel` comes from the flags: the register that R76 selects, for every resolution of
don't-care. -/
theorem outMux_outSelOf (dc : Config.DontCare) (c : Control) (r : Regs) (h : c.outSel = outSelOf (compare r)) :
    outMux dc c r = if r.b = 0 then r.a else r.b := by
  by_cases hb : r.b = 0#16 <;> simp only [outMux, h, outSelOf, compare, hb] <;> simp [OutSel.code, hb, mux2]

/-! ## The discipline of the ports -/

@[simp] theorem openRequest_nil : openRequest [] = some none := rfl

theorem openRequest_cons {older : List PortCycle} {o : Option Request} (c : PortCycle) (h : openRequest older = some o) :
    openRequest (c :: older) = portStep o c := by simp [openRequest, h]

/-- A cycle without transfers leaves the open request as it is. -/
theorem portStep_quiet (o : Option Request) (rdy val : Bool) : portStep o ⟨rdy, val, none, none⟩ = some o := rfl

/-- A request accepted when none is open becomes the open one. -/
theorem portStep_accept (q : Request) (rdy val : Bool) : portStep none ⟨rdy, val, some q, none⟩ = some (some q) := rfl

/-- A response that carries the gcd of the open request closes it; a request may take its place in the same cycle. -/
theorem portStep_deliver {q : Request} {v : Response} (h : v.value.toNat = gcdOf q) (rdy val : Bool) (next : Option Request) :
    portStep (some q) ⟨rdy, val, next, some v⟩ = some next := by
  cases next <;> simp [portStep, h]

end Sys2Proof.Machine
end

