-- ==== Sys2Proof/Laws/PerInstr.lean ====
section
/-! SUPPORT. Two facts about each cycle kind as syntax: its key decodes to it, and its key matches its own row of the table. -/

namespace Sys2Proof.Laws.DecodeEncode

/-- Decoding the key of a cycle kind gives it back, whatever its `x` bits. -/
def Statement (i : Instr) : Prop := decode (encode i) = .ok i

theorem idleWait (x y z : Bool) : Statement (.idleWait x y z) := by cases x <;> cases y <;> cases z <;> rfl
theorem idleAccept (x y z : Bool) : Statement (.idleAccept x y z) := by cases x <;> cases y <;> cases z <;> rfl
theorem subA (x y : Bool) : Statement (.subA x y) := by cases x <;> cases y <;> rfl
theorem subB (x y : Bool) : Statement (.subB x y) := by cases x <;> cases y <;> rfl
theorem finStall (x y : Bool) : Statement (.finStall x y) := by cases x <;> cases y <;> rfl
theorem finDrain (x : Bool) : Statement (.finDrain x) := by cases x <;> rfl
theorem finChain (x : Bool) : Statement (.finChain x) := by cases x <;> rfl
theorem doneStall (x y z : Bool) : Statement (.doneStall x y z) := by cases x <;> cases y <;> cases z <;> rfl
theorem doneDrain (x y z : Bool) : Statement (.doneDrain x y z) := by cases x <;> cases y <;> cases z <;> rfl

end Sys2Proof.Laws.DecodeEncode

namespace Sys2Proof.Laws.TableRow

/-- The key of a cycle kind matches exactly one row of the opcode table, the one that bears its mnemonic. -/
def Statement (i : Instr) : Prop :=
  (opcodeTable.filter (OpcodeRow.matchesKey · (encode i))).map OpcodeRow.mnemonic = [i.mnemonic]

theorem idleWait (x y z : Bool) : Statement (.idleWait x y z) := by cases x <;> cases y <;> cases z <;> rfl
theorem idleAccept (x y z : Bool) : Statement (.idleAccept x y z) := by cases x <;> cases y <;> cases z <;> rfl
theorem subA (x y : Bool) : Statement (.subA x y) := by cases x <;> cases y <;> rfl
theorem subB (x y : Bool) : Statement (.subB x y) := by cases x <;> cases y <;> rfl
theorem finStall (x y : Bool) : Statement (.finStall x y) := by cases x <;> cases y <;> rfl
theorem finDrain (x : Bool) : Statement (.finDrain x) := by cases x <;> rfl
theorem finChain (x : Bool) : Statement (.finChain x) := by cases x <;> rfl
theorem doneStall (x y z : Bool) : Statement (.doneStall x y z) := by cases x <;> cases y <;> cases z <;> rfl
theorem doneDrain (x y z : Bool) : Statement (.doneDrain x y z) := by cases x <;> cases y <;> cases z <;> rfl

end Sys2Proof.Laws.TableRow
end

