-- ==== Sys2Proof/Laws/Step.lean ====
section
/-! SUPPORT. How a step and a run unfold: the decoder on keys, the two branches of `step`, and runs as steps. -/

namespace Sys2Proof

/-- The decoder on a key packed from its fields. -/
theorem decode_packKey (f : Fsm) (fin sw rr rv : Bool) :
    decode (packKey f fin sw rr rv) = .ok (match f with
      | .idle => decodeIdle fin sw rr rv
      | .calc => decodeCalc fin sw rr rv
      | .done => decodeDone fin sw rr rv) := by
  cases f <;> cases fin <;> cases sw <;> cases rr <;> cases rv <;> rfl

end Sys2Proof

namespace Sys2Proof.Machine

/-- The cycle kind that a state's registers and inputs select. -/
theorem decode_key (s : State) :
    decode s.key = .ok (match s.regs.fsm with
      | .idle => decodeIdle (compare s.regs).finished (compare s.regs).swap s.inputs.respRdy s.inputs.reqVal
      | .calc => decodeCalc (compare s.regs).finished (compare s.regs).swap s.inputs.respRdy s.inputs.reqVal
      | .done => decodeDone (compare s.regs).finished (compare s.regs).swap s.inputs.respRdy s.inputs.reqVal) :=
  decode_packKey ..

/-- A cycle with `reset` high is a reset cycle. -/
theorem step_of_reset {s : State} (h : s.inputs.reset = true) : step s = .next s.resetCycle := by simp [step, h]

/-- A cycle in IDLE with `reset` low is one of two kinds. -/
theorem step_of_idle {s : State} (hr : s.inputs.reset = false) (hf : s.regs.fsm = .idle) :
    step s = if s.inputs.reqVal then execIdleAccept s else execIdleWait s := by
  simp only [step, hr, Bool.false_eq_true, if_false, decode_key, hf, decodeIdle]
  split <;> rfl

/-- A cycle in CALC with `reset` low is one of five kinds. -/
theorem step_of_calc {s : State} (hr : s.inputs.reset = false) (hf : s.regs.fsm = .calc) :
    step s =
      if (compare s.regs).finished then
        if s.inputs.respRdy then (if s.inputs.reqVal then execFinChain s else execFinDrain s) else execFinStall s
      else if (compare s.regs).swap then execSubB s else execSubA s := by
  simp only [step, hr, Bool.false_eq_true, if_false, decode_key, hf, decodeCalc]
  split
  · split
    · split <;> rfl
    · rfl
  · split <;> rfl

/-- A cycle in DONE with `reset` low is one of two kinds. -/
theorem step_of_done {s : State} (hr : s.inputs.reset = false) (hf : s.regs.fsm = .done) :
    step s = if s.inputs.respRdy then execDoneDrain s else execDoneStall s := by
  simp only [step, hr, Bool.false_eq_true, if_false, decode_key, hf, decodeDone]
  split <;> rfl

@[simp] theorem runsTo_zero (s t : State) : runsTo 0 s t ↔ s = t := by
  simp [runsTo, Host.Core.run, Sys2Proof.core]

/-- A run of `k + 1` cycles is a step and a run of `k` cycles. -/
theorem runsTo_succ (k : Nat) (s t : State) : runsTo (k + 1) s t ↔ ∃ u, step s = .next u ∧ runsTo k u t := by
  simp only [runsTo, Host.Core.run]
  cases hs : step s with
  | next u =>
    have hu : Sys2Proof.core.step s = .next u := hs
    simp only [hu]
    exact ⟨fun h => ⟨u, rfl, h⟩, fun ⟨_, h, hr⟩ => by cases h; exact hr⟩
  | fault r => cases r
  | refused r =>
    have hu : Sys2Proof.core.step s = .refused r := hs
    simp only [hu]
    exact ⟨fun h => (nomatch h), fun ⟨_, h, _⟩ => (nomatch h)⟩

/-- A run leads to one state. -/
theorem runsTo_unique {k : Nat} {s t u : State} (ht : runsTo k s t) (hu : runsTo k s u) : t = u := by
  have h := ht.symm.trans hu
  cases h
  rfl

/-- A run of `j + k` cycles is a run of `j` cycles and then one of `k`. -/
theorem runsTo_add (j k : Nat) (s t : State) : runsTo (j + k) s t ↔ ∃ u, runsTo j s u ∧ runsTo k u t := by
  induction j generalizing s with
  | zero => simp
  | succ j ih =>
    rw [show j + 1 + k = (j + k) + 1 by omega, runsTo_succ]
    constructor
    · rintro ⟨v, hv, hr⟩
      obtain ⟨u, hu, hk⟩ := (ih v).1 hr
      exact ⟨u, (runsTo_succ ..).2 ⟨v, hv, hu⟩, hk⟩
    · rintro ⟨u, hu, hk⟩
      obtain ⟨v, hv, hj⟩ := (runsTo_succ ..).1 hu
      exact ⟨v, hv, (ih v).2 ⟨u, hj, hk⟩⟩

/-- A step or a reset cycle makes every later input vector one cycle nearer. -/
theorem inputAt_of_step {s t : State} (h : step s = .next t) (k : Nat) : t.inputAt k = s.inputAt (k + 1) := by
  apply State.inputAt_advance
  all_goals
    cases hr : s.inputs.reset with
    | true => rw [step_of_reset hr] at h; cases h; rfl
    | false =>
      cases hf : s.regs.fsm
      case idle => rw [step_of_idle hr hf] at h; split at h <;> cases h <;> rfl
      case done => rw [step_of_done hr hf] at h; split at h <;> cases h <;> rfl
      rw [step_of_calc hr hf] at h
      split at h
      · split at h
        · split at h <;> cases h <;> rfl
        · cases h; rfl
      · split at h <;> cases h <;> rfl

end Sys2Proof.Machine
end

