-- ==== Sys2Proof/Tests/Slice0.lean ====
section
/-! SUPPORT. The smoke test of the checks, tests whose expected values stand in spec/30_encoding.md and spec/95_test_vectors.md, and for
every obligation with hypotheses a witness that meets them. -/

namespace Sys2Proof.Tests

open Sys2Proof Sys2Proof.Machine

/-! ## WellFormed: each check refuses an ill-formed term -/

theorem test_wfKey_refuses_reserved_state : wfKey 0b110000 = false ∧ wfKey 0b111111 = false := by decide
theorem test_inputs_wf_refuses_reset_line : (Inputs.resetLine (Inputs.nop true)).wf = false := by decide
/-- R57: the operands of a cycle kind are "either value", so there is no ill-formed one for `Instr.wf` to refuse. -/
theorem test_instr_wf_accepts_every_kind (i : Instr) : i.wf = true := by cases i <;> rfl

/-! ## Decoding -/

/-- The `match_int` of each row of spec/opcode_table.json. -/
theorem test_table_words_decode :
    [0, 1, 16, 20, 24, 26, 27, 32, 34].map (decodeTableWord 8) =
      [some (.idleWait false false false), some (.idleAccept false false false), some (.subA false false),
       some (.subB false false), some (.finStall false false), some (.finDrain false), some (.finChain false),
       some (.doneStall false false false), some (.doneDrain false false false)] := by decide

/-- R58, and a bit above bit 5. -/
theorem test_table_words_refused : [0x30, 0x3F, 0x40, 0xC0].map (decodeTableWord 8) = [none, none, none, none] := by decide

/-- 95_test_vectors.md 3.5: K of DONE, finished, no swap, resp_rdy = 0, req_val = 1. -/
theorem test_key_done_stall : packKey .done true false false true = 0b101001 ∧ encode (.doneStall true false true) = 0b101001 := by
  decide

/-- The word placed by `withFetchWord` is the one that the next step runs, from reset. -/
theorem test_fetch_idle :
    step (State.reset.withFetchWord 8 0) = exec (.idleWait false false false) (State.reset.withFetchWord 8 0) ∧
    step (State.reset.withFetchWord 8 1) = exec (.idleAccept false false false) (State.reset.withFetchWord 8 1) := ⟨rfl, rfl⟩
theorem test_fetch_sub :
    step (State.reset.withFetchWord 8 16) = exec (.subA false false) (State.reset.withFetchWord 8 16) ∧
    step (State.reset.withFetchWord 8 20) = exec (.subB false false) (State.reset.withFetchWord 8 20) := ⟨rfl, rfl⟩
theorem test_fetch_finish :
    step (State.reset.withFetchWord 8 24) = exec (.finStall false false) (State.reset.withFetchWord 8 24) ∧
    step (State.reset.withFetchWord 8 26) = exec (.finDrain false) (State.reset.withFetchWord 8 26) ∧
    step (State.reset.withFetchWord 8 27) = exec (.finChain false) (State.reset.withFetchWord 8 27) := ⟨rfl, rfl, rfl⟩
theorem test_fetch_done :
    step (State.reset.withFetchWord 8 32) = exec (.doneStall false false false) (State.reset.withFetchWord 8 32) ∧
    step (State.reset.withFetchWord 8 34) = exec (.doneDrain false false false) (State.reset.withFetchWord 8 34) := ⟨rfl, rfl⟩

/-! ## Records, stimulus words, control words (95_test_vectors.md 3.5) -/

theorem test_request_pack :
    Request.pack ⟨15, 5⟩ = 0x000F0005 ∧ Request.pack ⟨0xBEEF, 1⟩ = 0xBEEF0001 ∧ Response.pack ⟨6⟩ = 0x0006 := by decide
theorem test_stimulus_words :
    (Inputs.line true 48 18 false).encode = some 0x200300012 ∧ (Inputs.nop true).encode = some 0x100000000 ∧
    (Inputs.nop false).encode = some 0x000000000 ∧ (Inputs.line false 65535 1 true).encode = some 0x1FFFF0001 := by decide
theorem test_control_words :
    Control.word Config.dontCare ⟨true, .sub, false, .dc, .b, .aMinusB⟩ = 0b110010 ∧
    Control.word Config.dontCare ⟨false, .dc, true, .sub, .b, .bMinusA⟩ = 0b001111 := by decide
/-- R62: `HOLD 2 : NOP 1` is two lines; RESET has no stimulus word. -/
theorem test_pseudo_lines :
    Inputs.hold 2 (Inputs.nop true) = [Inputs.line false 0 0 true, Inputs.line false 0 0 true] ∧
    (Inputs.resetLine (Inputs.nop true)).encode = none := by decide

/-! ## Datapath (95_test_vectors.md 2.1, 2.2) -/

/-- The flags and condition signals of a row of table 2.1: az, bz, lt, finished, swap, do_sub. -/
def flagsRow (a b : Word) : List Bool :=
  let f := Machine.compare ⟨.calc, a, b⟩
  [f.isAZero, f.isBZero, f.isALtB, f.finished, f.swap, f.doSub]

theorem test_flags_zero :
    flagsRow 0 0 = [true, true, false, true, false, false] ∧ flagsRow 0 65535 = [true, false, true, true, true, true] ∧
    flagsRow 65535 0 = [false, true, false, true, false, false] := by decide
/-- The comparison is unsigned. -/
theorem test_flags_unsigned :
    flagsRow 32768 32767 = [false, false, false, false, false, true] ∧
    flagsRow 32767 32768 = [false, false, true, false, true, true] := by decide

/-- `sub_out` for A, B and a select. -/
def subRow (a b : Word) (sel : SubSel) : Word :=
  subOut Config.dontCare ⟨false, .dc, false, .dc, .dc, sel⟩ ⟨.done, a, b⟩

theorem test_sub_out :
    subRow 15 5 .aMinusB = 10 ∧ subRow 12 18 .bMinusA = 6 ∧ subRow 12 18 .aMinusB = 65530 ∧ subRow 65535 1 .bMinusA = 2 ∧
    subRow 0 6 .dc = 65530 ∧ subRow 0 65535 .aMinusB = 1 := by decide

/-! ## One cycle of each kind (95_test_vectors.md 3.3) -/

/-- A state with the given registers and input lines, nothing run yet. -/
def st (fsm : Fsm) (a b : Word) (stim : List Inputs) : State := { regs := ⟨fsm, a, b⟩, stim := stim, cycle := 0, log := [] }

/-- What a row of table 3.3 gives: K, CW, sub_out, req_rdy, resp_val, resp_value, and the registers after the boundary. -/
structure CycleRow where
  key : BitVec 6
  cw : BitVec 6
  subOut : Word
  reqRdy : Bool
  respVal : Bool
  respValue : Word
  next : Option Regs
deriving DecidableEq, Repr

/-- The row that the model gives. -/
def cycleRow (s : State) : CycleRow :=
  let g := s.signals
  { key := s.key, cw := g.control.word Config.dontCare, subOut := g.subOut, reqRdy := g.reqRdy, respVal := g.respVal,
    respValue := g.respValue,
    next :=
      match step s with
      | .next t => some t.regs
      | _ => none }

/-- What the ports transferred in the cycle. -/
def transfersOf (s : State) : Option (Option Request × Option Response) :=
  match step s with
  | .next t => t.log.head?.map fun p => (p.request, p.response)
  | _ => none

theorem test_idle_wait : cycleRow (st .idle 7 9 [Inputs.line false 21 14 false]) =
    ⟨0b000100, 0b101000, 65534, true, false, 7, some ⟨.idle, 21, 14⟩⟩ := by decide
theorem test_idle_accept : cycleRow (st .idle 7 9 [Inputs.line true 21 14 false]) =
    ⟨0b000101, 0b101000, 65534, true, false, 7, some ⟨.calc, 21, 14⟩⟩ := by decide
theorem test_idle_accept_transfers : transfersOf (st .idle 0 0 [Inputs.line true 15 5 true]) = some (some ⟨15, 5⟩, none) := by decide
theorem test_sub_a : cycleRow (st .calc 21 14 [Inputs.line true 5 5 true]) =
    ⟨0b010011, 0b110010, 7, false, false, 14, some ⟨.calc, 7, 14⟩⟩ := by decide
theorem test_sub_a_unsigned : cycleRow (st .calc 32768 32767 [Inputs.line false 0 0 false]) =
    ⟨0b010000, 0b110010, 1, false, false, 32767, some ⟨.calc, 1, 32767⟩⟩ := by decide
theorem test_sub_b : cycleRow (st .calc 7 14 [Inputs.line true 5 5 true]) =
    ⟨0b010111, 0b001111, 7, false, false, 14, some ⟨.calc, 7, 7⟩⟩ := by decide
theorem test_sub_b_unsigned : cycleRow (st .calc 32767 32768 [Inputs.line false 0 0 false]) =
    ⟨0b010100, 0b001111, 1, false, false, 32768, some ⟨.calc, 32767, 1⟩⟩ := by decide
theorem test_fin_stall_b : cycleRow (st .calc 0 7 [Inputs.line true 5 5 false]) =
    ⟨0b011101, 0b000011, 7, false, true, 7, some ⟨.done, 0, 7⟩⟩ := by decide
theorem test_fin_stall_a : cycleRow (st .calc 7 0 [Inputs.line false 5 5 false]) =
    ⟨0b011000, 0b000000, 7, false, true, 7, some ⟨.done, 7, 0⟩⟩ := by decide
theorem test_fin_drain : cycleRow (st .calc 0 7 [Inputs.line false 5 5 true]) =
    ⟨0b011110, 0b101011, 7, true, true, 7, some ⟨.idle, 5, 5⟩⟩ := by decide
theorem test_fin_drain_transfers : transfersOf (st .calc 0 5 [Inputs.line false 0 0 true]) = some (none, some ⟨5⟩) := by decide
theorem test_fin_chain : cycleRow (st .calc 7 0 [Inputs.line true 0 0 true]) =
    ⟨0b011011, 0b101000, 7, true, true, 7, some ⟨.calc, 0, 0⟩⟩ := by decide
theorem test_fin_chain_transfers : transfersOf (st .calc 0 5 [Inputs.line true 1 1 true]) = some (some ⟨1, 1⟩, some ⟨5⟩) := by decide
theorem test_done_stall_b : cycleRow (st .done 0 7 [Inputs.line true 5 5 false]) =
    ⟨0b101101, 0b000010, 65529, false, true, 7, some ⟨.done, 0, 7⟩⟩ := by decide
theorem test_done_stall_a : cycleRow (st .done 7 0 [Inputs.line false 5 5 false]) =
    ⟨0b101000, 0b000000, 7, false, true, 7, some ⟨.done, 7, 0⟩⟩ := by decide
theorem test_done_drain : cycleRow (st .done 0 7 [Inputs.line true 5 5 true]) =
    ⟨0b101111, 0b000010, 65529, false, true, 7, some ⟨.idle, 0, 7⟩⟩ := by decide
theorem test_done_drain_transfers : transfersOf (st .done 0 6 [Inputs.line false 0 0 true]) = some (none, some ⟨6⟩) := by decide

/-- 95_test_vectors.md 3.4. -/
theorem test_sub_steps :
    [(15, 5), (0, 0), (1, 1), (48, 18), (12, 0), (3, 7), (270, 192), (610, 377)].map (fun p => subSteps p.1 p.2) =
      [3, 0, 1, 5, 0, 5, 11, 14] := by decide

/-! ## Witnesses: every obligation with hypotheses has states and operands that meet them -/

/-- A consumer that waits, one that is ready, a valid request (3, 0) under each, and a reset line. -/
def wait : Inputs := Inputs.line false 9 8 false
def ready : Inputs := Inputs.line false 9 8 true
def askWait : Inputs := Inputs.line true 3 0 false
def askReady : Inputs := Inputs.line true 3 0 true
def resetIn : Inputs := Inputs.resetLine askReady

theorem witness_CycleKindKeysRoundTrip : decode 0b101001 = .ok (.doneStall true false true) := by decide
theorem witness_EveryLegalKeyMatchesOneRow : wfKey 0b101111 = true ∧ wfKey 0b110000 = false := by decide
theorem witness_StimulusWordLayout : (Inputs.line true 65535 0 false).encode = some 0x2FFFF0000 := by decide
theorem witness_SubtractorIsModulo65536 :
    Machine.subAControl.subSel = .aMinusB ∧ Machine.subBControl.subSel = .bMinusA ∧ Machine.idleControl.subSel = .dc := by decide

/-- At the ends of the two ranges: A = B = 1, A = 65535, and A one less than B. -/
theorem witness_LoadedDifferenceNeverWraps :
    (∀ a : Word, a = 1 ∨ a = 65535 → (settle ⟨true, true⟩ ⟨.calc, a, 1⟩ wait).control.aEn = true ∧
      (settle ⟨true, true⟩ ⟨.calc, a, 1⟩ wait).control.aSel = .sub) ∧
    (settle Config.dontCare ⟨.calc, 1, 2⟩ ready).control.bEn = true ∧
    (settle Config.dontCare ⟨.calc, 1, 2⟩ ready).control.bSel = .sub := by
  refine ⟨?_, by decide, by decide⟩
  rintro a (rfl | rfl) <;> decide

theorem witness_OperandLoads :
    Machine.idleControl.aSel = .req ∧ Machine.subBControl.aSel = .dc ∧ Machine.subAControl.aSel = .sub ∧
    Machine.subAControl.aEn = true ∧ Machine.subBControl.aEn = false ∧
    Machine.idleControl.bSel = .req ∧ Machine.subAControl.bSel = .dc ∧ Machine.subBControl.bSel = .sub ∧
    Machine.subBControl.bEn = true ∧ Machine.subAControl.bEn = false := by decide

theorem witness_OutputIsTheNonZeroRegister :
    (settle Config.dontCare ⟨.calc, 12, 0⟩ wait).respVal = true ∧ Regs.isFinished ⟨.calc, 12, 0⟩ ∧
    (settle ⟨true, true⟩ ⟨.done, 0, 9⟩ wait).respVal = true ∧ Regs.isFinished ⟨.done, 0, 9⟩ := by decide

theorem witness_IdleOutputsAndTransition :
    (st .idle 7 9 [askWait]).regs.fsm = .idle ∧ (st .idle 7 9 [askWait]).inputs.reset = false := by decide

/-- One state for each of the four cases, at its boundaries. -/
theorem witness_CalcOutputs :
    (∀ s ∈ [st .calc 1 1 [wait], st .calc 65535 1 [ready]], s.regs.fsm = .calc ∧ 1 ≤ s.regs.b.toNat ∧ s.regs.b.toNat ≤ s.regs.a.toNat) ∧
    (∀ s ∈ [st .calc 1 2 [wait], st .calc 1 65535 [ready]], s.regs.fsm = .calc ∧ 1 ≤ s.regs.a.toNat ∧ s.regs.a.toNat < s.regs.b.toNat) ∧
    (∀ s ∈ [st .calc 0 0 [ready], st .calc 0 65535 [ready], st .calc 65535 0 [ready]],
      s.regs.fsm = .calc ∧ s.regs.isFinished ∧ s.inputs.respRdy = true) ∧
    (∀ s ∈ [st .calc 0 0 [wait], st .calc 0 1 [wait], st .calc 1 0 [wait]],
      s.regs.fsm = .calc ∧ s.regs.isFinished ∧ s.inputs.respRdy = false) := by decide

theorem witness_DoneOutputs :
    (st .done 0 6 [askWait]).regs.fsm = .done ∧ (st .done 0 6 [askWait]).inputs.reset = false := by decide

theorem witness_TransitionTable :
    ∀ s ∈ [st .idle 0 0 [askWait], st .calc 0 0 [ready], st .done 1 0 [ready]], s.inputs.reset = false := by decide

theorem witness_SignalsFollowTheKindTable : decode (st .calc 0 7 [ready]).key = .ok (.finDrain true) := by decide

theorem witness_KindSelection :
    ((st .idle 0 0 [wait]).regs.fsm = .idle ∧ (st .idle 0 0 [wait]).inputs.reqVal = false) ∧
    ((st .idle 0 0 [askWait]).regs.fsm = .idle ∧ (st .idle 0 0 [askWait]).inputs.reqVal = true) ∧
    (∀ s ∈ [st .calc 1 1 [wait]], s.regs.fsm = .calc ∧ 1 ≤ s.regs.b.toNat ∧ s.regs.b.toNat ≤ s.regs.a.toNat) ∧
    (∀ s ∈ [st .calc 1 2 [wait]], s.regs.fsm = .calc ∧ 1 ≤ s.regs.a.toNat ∧ s.regs.a.toNat < s.regs.b.toNat) ∧
    (∀ s ∈ [st .calc 0 0 [wait], st .calc 1 0 [askWait]], s.regs.fsm = .calc ∧ s.regs.isFinished ∧ s.inputs.respRdy = false) ∧
    (∀ s ∈ [st .calc 0 1 [ready]], s.regs.fsm = .calc ∧ s.regs.isFinished ∧ s.inputs.respRdy = true ∧ s.inputs.reqVal = false) ∧
    (∀ s ∈ [st .calc 1 0 [askReady]], s.regs.fsm = .calc ∧ s.regs.isFinished ∧ s.inputs.respRdy = true ∧ s.inputs.reqVal = true) ∧
    (∀ s ∈ [st .done 0 1 [askWait]], s.regs.fsm = .done ∧ s.inputs.respRdy = false) ∧
    (∀ s ∈ [st .done 0 1 [askReady]], s.regs.fsm = .done ∧ s.inputs.respRdy = true) := by decide

theorem witness_StepRunsTheSelectedKind :
    (st .calc 5 5 [askReady]).inputs.reset = false ∧ decode (st .calc 5 5 [askReady]).key = .ok (.subA true true) := by decide
theorem witness_StepIsTheCycleFunction : (st .done 0 6 [askReady]).inputs.reset = false := by decide
theorem witness_FoldedFormAgrees : (settle ⟨true, false⟩ ⟨.done, 0, 6⟩ wait).respVal = true := by decide
theorem witness_ResetCycleStartsANewRun : (st .calc 48 18 [resetIn]).inputs.reset = true := by decide
theorem witness_FirstCycleAfterReset :
    ({ State.reset with stim := [askWait] } : State).inputs.reqVal = true ∧
    ({ State.reset with stim := [wait] } : State).inputs.reqVal = false := ⟨rfl, rfl⟩

/-- For each clause, at its boundary: A = B, A one less than B; cycles that are no subtraction; finished ones. -/
theorem witness_OneSubtractionStepPerCycle :
    (∀ s ∈ [st .calc 1 2 [wait]], s.inputs.reset = false ∧ s.regs.fsm = .calc ∧ ¬ s.regs.isFinished ∧ s.regs.a.toNat < s.regs.b.toNat) ∧
    (∀ s ∈ [st .calc 5 5 [wait]], s.inputs.reset = false ∧ s.regs.fsm = .calc ∧ ¬ s.regs.isFinished ∧ s.regs.b.toNat ≤ s.regs.a.toNat) ∧
    (∀ s ∈ [st .idle 5 5 [wait], st .done 0 5 [wait], st .calc 0 5 [ready]],
      s.inputs.reset = false ∧ ¬ (s.regs.fsm = .calc ∧ ¬ s.regs.isFinished)) ∧
    (∀ s ∈ [st .calc 0 0 [wait], st .calc 0 65535 [ready]], s.inputs.reset = false ∧ s.regs.fsm = .calc ∧ s.regs.isFinished) := by decide

theorem witness_TransfersNeedValidAndReady : (st .calc 0 5 [askReady]).inputs.reset = false := by decide

/-- Two cycles: one in CALC and one in DONE. -/
theorem witness_ResponseIsHeldUntilTaken :
    (st .calc 0 6 [wait, askWait]).signals.respVal = true ∧ noReset 2 (st .calc 0 6 [wait, askWait]) ∧
    ∀ j < 2, ((st .calc 0 6 [wait, askWait]).inputAt j).respRdy = false :=
  ⟨by decide, (by decide : ∀ j < 2, ((st .calc 0 6 [wait, askWait]).inputAt j).reset = false), by decide⟩

theorem witness_OutputsIgnoreTheRequestPort :
    Regs.fsm ⟨.idle, 1, 2⟩ ≠ .calc ∧ Regs.fsm ⟨.done, 0, 2⟩ ≠ .calc ∧ Regs.fsm ⟨.calc, 0, 2⟩ = .calc := by decide

/-- A response delivered from DONE, a response and a request in one cycle, a request accepted in IDLE. -/
theorem witness_TransferredDataIsNotReused :
    (∀ s ∈ [st .done 0 5 [ready], st .calc 0 5 [askReady]], s.inputs.reset = false ∧ s.signals.respXfer = true) ∧
    (∀ s ∈ [st .idle 0 5 [askWait], st .calc 0 5 [askReady]], s.inputs.reset = false ∧ s.signals.reqXfer = true) := by decide

theorem witness_RefusedRequestLeavesNoTrace :
    wait.reset = false ∧ askWait.reset = false ∧ wait.respRdy = askWait.respRdy ∧
    ({ st .done 0 6 [] with stim := wait :: [] } : State).signals.reqRdy = false ∧
    ({ st .calc 5 6 [] with stim := wait :: [] } : State).signals.reqRdy = false := by decide

theorem witness_IdleForgetsTheRegisters :
    (st .idle 7 9 [ready]).regs.fsm = .idle ∧ (st .idle 7 9 [ready]).inputs.reset = false := by decide
/-- A finished computation whose result is taken while no request is valid: the payload is loaded. -/
theorem witness_InvalidPayloadIsNeverSeen :
    ready.reqVal = false ∧ noReset 2 { st .calc 0 5 [] with stim := ready :: [askReady] } :=
  ⟨by decide, (by decide : ∀ j < 2, (({ st .calc 0 5 [] with stim := ready :: [askReady] } : State).inputAt j).reset = false)⟩

theorem witness_CycleDependsOnRegistersAndInputsOnly :
    (st .calc 5 6 [askReady]).regs = ({ st .calc 5 6 [askReady, wait] with cycle := 7 } : State).regs ∧
    (st .calc 5 6 [askReady]).inputs = ({ st .calc 5 6 [askReady, wait] with cycle := 7 } : State).inputs ∧
    (st .calc 5 6 [askReady]).inputs.reset = false := by decide

/-- Both sides of the equivalence hold in this state. -/
theorem witness_BothPortsTransferOnlyInFinChain :
    (st .calc 0 5 [askReady]).signals.reqXfer = true ∧ (st .calc 0 5 [askReady]).signals.respXfer = true ∧
    decode (st .calc 0 5 [askReady]).key = .ok (.finChain true) := by decide

/-- The producer offers (9, 3) while the unit computes on (5, 5), and again in the next cycle, in which the unit takes it. -/
def dutyState : State := st .calc 5 5 [Inputs.line true 9 3 true, Inputs.line true 9 3 true]

theorem witness_DutyDeliversTheOfferedPair :
    noReset 2 dutyState ∧ dutyState.inputs.reqVal = true ∧ producerKeepsDuty 1 dutyState ∧
    (∀ j < 1, ∀ u, runsTo j dutyState u → u.signals.reqRdy = false) ∧
    ∃ t, runsTo 1 dutyState t ∧ t.signals.reqRdy = true := by
  refine ⟨(by decide : ∀ j < 2, (dutyState.inputAt j).reset = false), by decide, ?_, ?_, _, rfl, by decide⟩
  · intro j hj t ht _ _
    obtain rfl : j = 0 := by omega
    rw [runsTo_zero] at ht
    subst ht
    decide
  · intro j hj u hu
    obtain rfl : j = 0 := by omega
    rw [runsTo_zero] at hu
    subst hu
    decide

/-- A state of CALC with an open request (15, 5), as a run has it after its first cycle. -/
def calcState (stim : List Inputs) : State :=
  { regs := ⟨.calc, 15, 5⟩, stim := stim, cycle := 1, log := [⟨true, false, some ⟨15, 5⟩, none⟩] }

theorem witness_StepKeepsTheInvariant : (calcState [wait]).Inv ∧ ∃ t, step (calcState [wait]) = .next t :=
  ⟨⟨⟨15, 5⟩, by decide, by decide⟩, _, rfl⟩

theorem witness_RunsStartInTheInvariant : (st .idle 65535 0 [resetIn]).isStart := ⟨rfl, rfl⟩

/-- Accept (3, 0), find it finished, and wait for the consumer. -/
theorem witness_DoneImpliesFinished :
    (st .idle 7 9 [askWait, wait]).isStart ∧ ∃ t, runsTo 2 (st .idle 7 9 [askWait, wait]) t ∧ t.regs.fsm = .done :=
  ⟨⟨rfl, rfl⟩, _, rfl, by decide⟩

/-- Accept (4, 6); one SUB_B cycle follows, in which nothing transfers. -/
theorem witness_GcdIsKeptUntilTheResponse :
    (st .idle 0 0 [Inputs.line true 4 6 true, ready]).inputs.reqVal = true ∧
    (st .idle 0 0 [Inputs.line true 4 6 true, ready]).signals.reqRdy = true ∧
    noReset 2 (st .idle 0 0 [Inputs.line true 4 6 true, ready]) ∧
    ∀ k < 1, ∀ u, runsTo (k + 1) (st .idle 0 0 [Inputs.line true 4 6 true, ready]) u → u.signals.respXfer = false := by
  refine ⟨by decide, by decide,
    (by decide : ∀ j < 2, ((st .idle 0 0 [Inputs.line true 4 6 true, ready]).inputAt j).reset = false), ?_⟩
  intro k hk u hu
  obtain rfl : k = 0 := by omega
  rw [← runsTo_unique (rfl : runsTo 1 (st .idle 0 0 [Inputs.line true 4 6 true, ready]) _) hu]
  decide

theorem witness_OfferedResponseIsTheGcd :
    State.Inv { calcState [wait] with regs := ⟨.done, 0, 5⟩ } ∧
    ({ calcState [wait] with regs := ⟨.done, 0, 5⟩ } : State).signals.respVal = true :=
  ⟨⟨⟨⟨15, 5⟩, by decide, by decide⟩, Or.inl rfl⟩, by decide⟩

/-- Accept (3, 0), deliver 3 and accept (3, 0) again. -/
theorem witness_ResponsesAnswerRequestsInOrder :
    (st .idle 0 0 [askReady, askReady, wait]).isStart ∧
    ∃ t, runsTo 2 (st .idle 0 0 [askReady, askReady, wait]) t ∧ t.responses[0]? = some ⟨3⟩ ∧ ∃ t', step t = .next t' :=
  ⟨⟨rfl, rfl⟩, _, rfl, by decide, _, rfl⟩

/-- The clauses of R135: a zero operand, equal operands, operands one apart. -/
theorem witness_SubtractionStepCount : (0 = 0 ∨ 7 = 0) ∧ (1 ≤ 5 ∧ 5 ≤ 5) ∧ (1 ≤ 5 ∧ 5 < 6) := by decide

/-- (15, 5) takes three steps; and with a zero operand none. -/
theorem witness_ComputationTakesItsSteps :
    (st .calc 15 5 [wait, askReady, ready]).regs.fsm = .calc ∧ noReset (subSteps 15 5) (st .calc 15 5 [wait, askReady, ready]) ∧
    1 ≤ (st .calc 15 5 [wait, askReady, ready]).regs.a.toNat ∧ 1 ≤ (st .calc 15 5 [wait, askReady, ready]).regs.b.toNat :=
  ⟨by decide, (by decide : ∀ j < subSteps 15 5, ((st .calc 15 5 [wait, askReady, ready]).inputAt j).reset = false), by decide, by decide⟩

/-- (1, 1) is accepted, takes one step, and is taken after the consumer has let one cycle pass. -/
def answerState : State := st .idle 0 0 [Inputs.line true 1 1 false, ready, wait, ready]

theorem witness_AcceptedRequestIsAnsweredByItsGcd :
    answerState.inputs.reqVal = true ∧ answerState.signals.reqRdy = true ∧ noReset (subSteps 1 1 + 1 + 2) answerState ∧
    (∀ j < 1, (answerState.inputAt (subSteps 1 1 + 1 + j)).respRdy = false) ∧
    (answerState.inputAt (subSteps 1 1 + 1 + 1)).respRdy = true :=
  ⟨by decide, by decide, (by decide : ∀ j < subSteps 1 1 + 1 + 2, (answerState.inputAt j).reset = false), by decide, by decide⟩

/-- A request and a consumer that never is ready, for 65536 cycles. -/
def longState : State := st .idle 0 0 (Inputs.hold 65536 (Inputs.line true 1 65535 false))

theorem witness_ResponseIsOfferedInBoundedTime :
    longState.inputs.reqVal = true ∧ longState.signals.reqRdy = true ∧ noReset 65536 longState := by
  have h : ∀ j < 65536, longState.inputAt j = Inputs.line true 1 65535 false := by
    intro j hj
    simp only [State.inputAt, longState, st, Inputs.hold, List.getElem?_replicate, hj, if_true]
  have h0 : longState.inputs = Inputs.line true 1 65535 false := h 0 (by omega)
  exact ⟨by rw [h0]; rfl, rfl, fun j hj => by rw [h j hj]; rfl⟩

theorem witness_DoneStallsWithoutLoss :
    ((st .done 0 6 [askReady]).regs.fsm = .done ∧ (st .done 0 6 [askReady]).inputs.reset = false ∧
      (st .done 0 6 [askReady]).inputs.respRdy = true) ∧
    ((st .done 0 6 [wait, askWait]).regs.fsm = .done ∧ noReset 2 (st .done 0 6 [wait, askWait]) ∧
      ∀ j < 2, ((st .done 0 6 [wait, askWait]).inputAt j).respRdy = false) :=
  ⟨by decide, by decide, (by decide : ∀ j < 2, ((st .done 0 6 [wait, askWait]).inputAt j).reset = false), by decide⟩

theorem witness_FullThroughputNeverLeavesCalc :
    (st .calc 0 5 [askReady, askReady]).regs.fsm = .calc ∧ noReset 2 (st .calc 0 5 [askReady, askReady]) ∧
    ∀ j < 2, ((st .calc 0 5 [askReady, askReady]).inputAt j).reqVal = true ∧
      ((st .calc 0 5 [askReady, askReady]).inputAt j).respRdy = true :=
  ⟨by decide, (by decide : ∀ j < 2, ((st .calc 0 5 [askReady, askReady]).inputAt j).reset = false), by decide⟩

end Sys2Proof.Tests
end

/-! PROOFS. The state family (spec/10_state.md): every step with `reset` low is one cycle of the control FSM's outputs, so that no run
stops; what the status flags say of the numbers in A and B; and what a cycle in IDLE does not read. -/

namespace Sys2Proof.Machine

/-! ## The issue of a cycle -/

/-- What the control FSM's equations (R91 to R97) issue in the current cycle, in the form in which the nine kinds are written. -/
def State.issue (s : State) : Issue :=
  { reqRdy := s.signals.reqRdy, respVal := s.signals.respVal, control := s.signals.control,
    reqXfer := s.signals.reqXfer, respXfer := s.signals.respXfer, next := nextFsm s.regs s.inputs s.signals }

/-- A cycle that obeys the control FSM is the cycle of R131. -/
theorem State.runCycle_issue (s : State) :
    s.runCycle s.issue =
      s.endCycle (tick Config.dontCare s.regs s.inputs) (portsOf Config.dontCare s.regs s.inputs) := rfl

theorem State.issue_of_idle {s : State} (hf : s.regs.fsm = .idle) :
    s.issue =
      { reqRdy := true, respVal := false, control := idleControl, reqXfer := s.inputs.reqVal, respXfer := false,
        next := if s.inputs.reqVal then .calc else .idle } := by
  simp [State.issue, State.signals, settle, fsmOut, hf, idleOut, idleControl, nextFsm, nextFromIdle]

theorem State.issue_of_done {s : State} (hf : s.regs.fsm = .done) :
    s.issue =
      { reqRdy := false, respVal := true, control := doneControl (compare s.regs), reqXfer := false,
        respXfer := s.inputs.respRdy, next := if s.inputs.respRdy then .idle else .done } := by
  simp [State.issue, State.signals, settle, fsmOut, hf, doneOut, doneControl, outSelOf, nextFsm, nextFromDone]

/-- An unfinished CALC cycle has B nonzero, so that its `out_sel` is B, as SUB_A and SUB_B have it. -/
theorem State.issue_of_unfinished {s : State} (hf : s.regs.fsm = .calc) (hfin : (compare s.regs).finished = false) :
    s.issue =
      { reqRdy := false, respVal := false, control := if (compare s.regs).swap then subBControl else subAControl,
        reqXfer := false, respXfer := false, next := .calc } := by
  have hb : (compare s.regs).isBZero = false := (Bool.or_eq_false_iff.1 hfin).2
  cases hsw : (compare s.regs).swap <;>
    simp [State.issue, State.signals, settle, fsmOut, hf, calcOut, hfin, hb, hsw, subAControl, subBControl, nextFsm, nextFromCalc]

theorem State.issue_of_finished {s : State} (hf : s.regs.fsm = .calc) (hfin : (compare s.regs).finished = true) :
    s.issue =
      { reqRdy := s.inputs.respRdy, respVal := true,
        control := if s.inputs.respRdy then finLoadControl (compare s.regs) else finHoldControl (compare s.regs),
        reqXfer := s.inputs.reqVal && s.inputs.respRdy, respXfer := s.inputs.respRdy,
        next := if s.inputs.respRdy then (if s.inputs.reqVal then .calc else .idle) else .done } := by
  cases hd : s.inputs.respRdy <;> cases hv : s.inputs.reqVal <;>
    simp [State.issue, State.signals, settle, fsmOut, hf, calcOut, hfin, hd, hv, finLoadControl, finHoldControl, outSelOf, subSelOf,
      nextFsm, nextFromCalc]

/-! ## Steps and runs -/

/-- The five kinds of CALC issue what the equations of R92 and R96 issue. -/
theorem step_of_calc_eq_runCycle_issue {s : State} (hr : s.inputs.reset = false) (hf : s.regs.fsm = .calc) :
    step s = .next (s.runCycle s.issue) := by
  rw [step_of_calc hr hf]
  cases hfin : (compare s.regs).finished with
  | false =>
    rw [State.issue_of_unfinished hf hfin]
    cases (compare s.regs).swap <;> rfl
  | true =>
    rw [State.issue_of_finished hf hfin]
    cases s.inputs.respRdy <;> cases s.inputs.reqVal <;> rfl

/-- Each of the nine kinds issues what the control FSM's equations issue. -/
theorem step_eq_runCycle_issue {s : State} (hr : s.inputs.reset = false) : step s = .next (s.runCycle s.issue) := by
  cases hf : s.regs.fsm
  case idle =>
    rw [step_of_idle hr hf, State.issue_of_idle hf]
    cases s.inputs.reqVal <;> rfl
  case done =>
    rw [step_of_done hr hf, State.issue_of_done hf]
    cases s.inputs.respRdy <;> rfl
  exact step_of_calc_eq_runCycle_issue hr hf

/-- A step with `reset` low is the cycle of R131, with the spec's resolution of don't-care. -/
theorem step_eq_cycle {s : State} (hr : s.inputs.reset = false) :
    step s = .next (s.endCycle (tick Config.dontCare s.regs s.inputs) (portsOf Config.dontCare s.regs s.inputs)) := by
  rw [step_eq_runCycle_issue hr, State.runCycle_issue]

theorem exists_step_eq_next (s : State) : ∃ t, step s = .next t := by
  cases hr : s.inputs.reset with
  | true => exact ⟨_, step_of_reset hr⟩
  | false => exact ⟨_, step_eq_cycle hr⟩

theorem exists_runsTo (k : Nat) (s : State) : ∃ t, runsTo k s t := by
  induction k generalizing s with
  | zero => exact ⟨s, (runsTo_zero s s).2 rfl⟩
  | succ k ih =>
    obtain ⟨u, hu⟩ := exists_step_eq_next s
    obtain ⟨t, ht⟩ := ih u
    exact ⟨t, (runsTo_succ k s t).2 ⟨u, hu, ht⟩⟩

/-- Two states with the same next step run to the same state ever after. -/
theorem runsTo_succ_congr {s s' : State} (h : step s = step s') (k : Nat) (t : State) :
    runsTo (k + 1) s t ↔ runsTo (k + 1) s' t := by
  rw [runsTo_succ, runsTo_succ, h]

/-! ## What a cycle reads -/

/-- In IDLE both registers load the pins and `resp_value` is not transferred, so a step reads neither A nor B (R91). -/
theorem step_of_idle_eq_step_with_operands {s : State} (hr : s.inputs.reset = false) (hf : s.regs.fsm = .idle) (a b : Word) :
    step s = step { s with regs := { s.regs with a := a, b := b } } := by
  rw [step_of_idle hr hf, step_of_idle (s := { s with regs := { s.regs with a := a, b := b } }) hr hf]
  rfl

/-- Settles O39: the first cycle overwrites A and B, and from then on the two runs are one. -/
theorem idleForgetsTheRegisters : Obligations.IdleForgetsTheRegisters := by
  intro s a b k hf hr
  obtain ⟨t, ht⟩ := exists_runsTo (k + 1) s
  exact ⟨t, ht, (runsTo_succ_congr (step_of_idle_eq_step_with_operands hr hf a b) k t).1 ht⟩

/-- Settles O41: the cycle of R131 is a function of the registers and the inputs. -/
theorem cycleDependsOnRegistersAndInputsOnly : Obligations.CycleDependsOnRegistersAndInputsOnly := by
  intro s s' hregs hin hr
  refine ⟨_, _, step_eq_cycle hr, step_eq_cycle (hin ▸ hr), ?_, ?_⟩ <;> simp [hregs, hin]

/-! ## Status flags and condition signals -/

@[simp] theorem State.signals_flags (s : State) : s.signals.flags = compare s.regs := rfl
@[simp] theorem State.signals_finished (s : State) : s.signals.finished = (compare s.regs).finished := rfl
@[simp] theorem State.signals_swap (s : State) : s.signals.swap = (compare s.regs).swap := rfl
@[simp] theorem State.signals_doSub (s : State) : s.signals.doSub = (compare s.regs).doSub := rfl

theorem compare_isAZero_iff_toNat (r : Regs) : (compare r).isAZero = true ↔ r.a.toNat = 0 := by
  rw [compare_isAZero, word_eq_zero]

theorem compare_isBZero_iff_toNat (r : Regs) : (compare r).isBZero = true ↔ r.b.toNat = 0 := by
  rw [compare_isBZero, word_eq_zero]

theorem compare_isALtB_iff_toNat (r : Regs) : (compare r).isALtB = true ↔ r.a.toNat < r.b.toNat := by
  rw [compare_isALtB, word_lt]

/-- Settles O6: the comparators on the numbers in A and B. -/
theorem statusFlagsCompareUnsigned : Obligations.StatusFlagsCompareUnsigned := fun s =>
  ⟨compare_isAZero_iff_toNat s.regs, compare_isBZero_iff_toNat s.regs, compare_isALtB_iff_toNat s.regs⟩

/-- Settles O7: the three equations are R16's own; each excluded combination contradicts what the flags say of the numbers. -/
theorem conditionSignals : Obligations.ConditionSignals := by
  intro s
  simp only [State.signals_flags, ← Bool.not_eq_true, compare_isAZero_iff_toNat, compare_isBZero_iff_toNat,
    compare_isALtB_iff_toNat]
  exact ⟨rfl, rfl, rfl, by omega, by omega, by omega⟩

/-! ## The first cycle after reset -/

theorem decode_key_of_idle {s : State} (hf : s.regs.fsm = .idle) :
    decode s.key =
      .ok (decodeIdle (compare s.regs).finished (compare s.regs).swap s.inputs.respRdy s.inputs.reqVal) := by
  rw [decode_key, hf]

/-- Settles O32: reset leaves the FSM in IDLE, whose outputs are fixed (R91) and whose kind is chosen by `req_val`. -/
theorem firstCycleAfterReset : Obligations.FirstCycleAfterReset := by
  refine ⟨rfl, fun stim => ⟨rfl, rfl, fun hv => ?_, fun hv => ?_⟩⟩ <;>
    exact ⟨_, _, _, by rw [decode_key_of_idle rfl, hv]; rfl⟩

end Sys2Proof.Machine

/-! PROOFS. The ports family (spec/20_memory.md): the port wires of each FSM state; a ready request port loads its pins and a refused
one leaves no trace; what a run keeps of an offer that is not taken, a response of the unit or a request of the producer. -/

namespace Sys2Proof.Machine

/-! ## The port wires of each FSM state (R91, R92, R93) -/

section Wires

variable {dc : Config.DontCare} {r : Regs} {i i' : Inputs}

theorem settle_reqRdy_of_idle (hf : r.fsm = .idle) : (settle dc r i).reqRdy = true := by
  simp [settle, fsmOut, hf, idleOut]

theorem settle_reqRdy_of_calc (hf : r.fsm = .calc) :
    (settle dc r i).reqRdy = ((compare r).finished && i.respRdy) := by
  simp [settle, fsmOut, hf, calcOut]

theorem settle_reqRdy_of_done (hf : r.fsm = .done) : (settle dc r i).reqRdy = false := by
  simp [settle, fsmOut, hf, doneOut]

theorem settle_respVal_of_idle (hf : r.fsm = .idle) : (settle dc r i).respVal = false := by
  simp [settle, fsmOut, hf, idleOut]

theorem settle_respVal_of_calc (hf : r.fsm = .calc) : (settle dc r i).respVal = (compare r).finished := by
  simp [settle, fsmOut, hf, calcOut]

theorem settle_respVal_of_done (hf : r.fsm = .done) : (settle dc r i).respVal = true := by
  simp [settle, fsmOut, hf, doneOut]

/-- Only CALC, when finished, and DONE offer a response. -/
theorem settle_respVal_iff :
    (settle dc r i).respVal = true ↔ r.fsm = .calc ∧ (compare r).finished = true ∨ r.fsm = .done := by
  cases hf : r.fsm
  case idle => simp [settle_respVal_of_idle hf]
  case done => simp [settle_respVal_of_done hf]
  simp [settle_respVal_of_calc hf]

/-- Only IDLE and a delivering CALC cycle accept a request. -/
theorem settle_reqRdy_iff :
    (settle dc r i).reqRdy = true ↔
      r.fsm = .idle ∨ r.fsm = .calc ∧ (compare r).finished = true ∧ i.respRdy = true := by
  cases hf : r.fsm
  case idle => simp [settle_reqRdy_of_idle hf]
  case done => simp [settle_reqRdy_of_done hf]
  simp [settle_reqRdy_of_calc hf]

/-- `req_rdy` reads no pin but `resp_rdy` (R36, R47). -/
theorem settle_reqRdy_congr (h : i.respRdy = i'.respRdy) : (settle dc r i).reqRdy = (settle dc r i').reqRdy := by
  simp only [settle, h]

/-- `resp_val` reads no pin (R47). -/
theorem settle_respVal_eq (dc : Config.DontCare) (r : Regs) (i i' : Inputs) :
    (settle dc r i).respVal = (settle dc r i').respVal := by
  rw [Bool.eq_iff_iff, settle_respVal_iff, settle_respVal_iff]

/-- `out_sel` comes from the flags in both states that can offer a response (R92, R93). -/
theorem settle_outSel_of_not_idle (hf : r.fsm ≠ .idle) :
    (settle dc r i).control.outSel = outSelOf (compare r) := by
  cases h : r.fsm
  case idle => exact absurd h hf
  case done => simp [settle, fsmOut, h, doneOut, outSelOf]
  simp [settle, fsmOut, h, calcOut, outSelOf]

theorem settle_respValue_of_not_idle (hf : r.fsm ≠ .idle) :
    (settle dc r i).respValue = if r.b = 0 then r.a else r.b :=
  outMux_outSelOf dc _ r (settle_outSel_of_not_idle (dc := dc) (i := i) hf)

/-- `resp_value` reads no pin: in IDLE its select is don't-care, elsewhere it comes from the flags (R47). -/
theorem settle_respValue_eq (dc : Config.DontCare) (r : Regs) (i i' : Inputs) :
    (settle dc r i).respValue = (settle dc r i').respValue := by
  by_cases hf : r.fsm = .idle
  · simp [settle, fsmOut, hf, idleOut]
  · rw [settle_respValue_of_not_idle hf, settle_respValue_of_not_idle hf]

end Wires

/-- Settles O36: the wires of each FSM state read no pin of the request port. -/
theorem outputsIgnoreTheRequestPort : Obligations.OutputsIgnoreTheRequestPort := by
  intro dc r i i'
  refine ⟨settle_respVal_eq dc r i i', settle_respValue_eq dc r i i', fun hf => ?_, settle_reqRdy_of_calc⟩
  cases h : r.fsm
  case idle => rw [settle_reqRdy_of_idle h, settle_reqRdy_of_idle h]
  case done => rw [settle_reqRdy_of_done h, settle_reqRdy_of_done h]
  exact absurd h hf

/-! ## Transfers (R33) -/

theorem settle_reqXfer (dc : Config.DontCare) (r : Regs) (i : Inputs) :
    (settle dc r i).reqXfer = (i.reqVal && (settle dc r i).reqRdy) := rfl

theorem settle_respXfer (dc : Config.DontCare) (r : Regs) (i : Inputs) :
    (settle dc r i).respXfer = ((settle dc r i).respVal && i.respRdy) := rfl

theorem portsOf_request (dc : Config.DontCare) (r : Regs) (i : Inputs) :
    (portsOf dc r i).request =
      if i.reqVal = true ∧ (settle dc r i).reqRdy = true then some (requestOf i) else none := by
  simp only [portsOf, settle_reqXfer, Bool.and_eq_true, requestOf]

theorem portsOf_response (dc : Config.DontCare) (r : Regs) (i : Inputs) :
    (portsOf dc r i).response =
      if (settle dc r i).respVal = true ∧ i.respRdy = true then some { value := (settle dc r i).respValue } else none := by
  simp only [portsOf, settle_respXfer, Bool.and_eq_true]

/-- Settles O34: the new entry of the log is the port record of R131. -/
theorem transfersNeedValidAndReady : Obligations.TransfersNeedValidAndReady := by
  intro s hr
  exact ⟨_, step_eq_cycle hr, _, rfl, rfl, rfl, portsOf_request .., portsOf_response ..⟩

/-- Two settings of the pins with the same `resp_rdy` show the same records at the ports, if neither transfers a request. -/
theorem portsOf_eq_of_no_request {dc : Config.DontCare} {r : Regs} {i i' : Inputs} (hd : i.respRdy = i'.respRdy)
    (hx : (portsOf dc r i).request = none) (hx' : (portsOf dc r i').request = none) :
    portsOf dc r i = portsOf dc r i' := by
  have hresp : (portsOf dc r i).response = (portsOf dc r i').response := by
    rw [portsOf_response, portsOf_response, settle_respVal_eq dc r i i', settle_respValue_eq dc r i i', hd]
  exact (PortCycle.mk.injEq ..).mpr ⟨settle_reqRdy_congr hd, settle_respVal_eq dc r i i', hx.trans hx'.symm, hresp⟩

/-! ## The registers after a cycle, by what the ports did -/

section NextRegisters

variable {dc : Config.DontCare} {r : Regs} {i i' : Inputs}

/-- A cycle with `req_rdy` = 1 loads both operands from the pins; it goes to CALC on them if they are a request, else to IDLE, where
they are junk (R91, R95, R96). -/
theorem tick_of_reqRdy (h : (settle dc r i).reqRdy = true) :
    tick dc r i = { fsm := if i.reqVal then .calc else .idle, a := i.reqA, b := i.reqB } := by
  obtain hf | ⟨hf, hfin, hd⟩ := settle_reqRdy_iff.1 h
  · simp [tick, settle, fsmOut, hf, idleOut, nextFsm, nextFromIdle, aMux, bMux, OperandSel.code]
  · cases hv : i.reqVal <;>
      simp [tick, settle, fsmOut, hf, calcOut, hfin, hd, hv, nextFsm, nextFromCalc, aMux, bMux, OperandSel.code]

/-- A response that is offered and not taken is offered from DONE in the next cycle, with A and B kept (R96, R97). -/
theorem tick_of_stalled (hv : (settle dc r i).respVal = true) (hd : i.respRdy = false) :
    tick dc r i = { r with fsm := .done } := by
  obtain ⟨hf, hfin⟩ | hf := settle_respVal_iff.1 hv
  · simp [tick, settle, fsmOut, hf, calcOut, hfin, hd, nextFsm, nextFromCalc]
  · simp [tick, settle, fsmOut, hf, doneOut, hd, nextFsm, nextFromDone]

/-- DONE keeps A and B, and leaves for IDLE when the response is taken (R93, R97). -/
theorem tick_of_done (hf : r.fsm = .done) :
    tick dc r i = { r with fsm := if i.respRdy then .idle else .done } := by
  simp [tick, settle, fsmOut, hf, doneOut, nextFsm, nextFromDone]

/-- A subtraction step reads no pin (R100, R101). -/
theorem tick_eq_of_unfinished (hf : r.fsm = .calc) (hfin : (compare r).finished = false) (i i' : Inputs) :
    tick dc r i = tick dc r i' := by
  cases hsw : (compare r).swap <;>
    simp [tick, settle, fsmOut, hf, calcOut, hfin, hsw, nextFsm, nextFromCalc, aMux, bMux, OperandSel.code, subOut]

/-- With `req_rdy` = 0 the next registers depend on no pin but `resp_rdy` (R38). -/
theorem tick_eq_of_refused (h : (settle dc r i).reqRdy = false) (hd : i.respRdy = i'.respRdy) :
    tick dc r i = tick dc r i' := by
  cases hf : r.fsm
  case idle => exact absurd (settle_reqRdy_of_idle hf) (Bool.eq_false_iff.1 h)
  case done => rw [tick_of_done hf, tick_of_done hf, hd]
  cases hfin : (compare r).finished
  case false => exact tick_eq_of_unfinished hf hfin i i'
  have hwait : i.respRdy = false := by simpa [settle_reqRdy_of_calc hf, hfin] using h
  have hoffer (j : Inputs) : (settle dc r j).respVal = true := settle_respVal_iff.2 (.inl ⟨hf, hfin⟩)
  rw [tick_of_stalled (hoffer i) hwait, tick_of_stalled (hoffer i') (hd ▸ hwait)]

/-- A delivered response leaves the unit in IDLE, unless the same cycle accepts a request (R37). -/
theorem tick_of_respXfer (hx : (settle dc r i).respXfer = true) :
    (tick dc r i).fsm = .idle ∨ (settle dc r i).reqXfer = true := by
  rw [settle_respXfer, Bool.and_eq_true] at hx
  obtain ⟨hv, hd⟩ := hx
  obtain ⟨hf, hfin⟩ | hf := settle_respVal_iff.1 hv
  · have hrdy : (settle dc r i).reqRdy = true := settle_reqRdy_iff.2 (.inr ⟨hf, hfin, hd⟩)
    cases hreq : i.reqVal
    case false => exact .inl (by simp [tick_of_reqRdy hrdy, hreq])
    case true => exact .inr (by simp [settle_reqXfer, hrdy, hreq])
  · exact .inl (by simp [tick_of_done hf, hd])

/-- An accepted request is in the registers, and CALC works on it, in the next cycle (R37). -/
theorem tick_of_reqXfer (hx : (settle dc r i).reqXfer = true) :
    tick dc r i = { fsm := .calc, a := i.reqA, b := i.reqB } := by
  rw [settle_reqXfer, Bool.and_eq_true] at hx
  obtain ⟨hreq, hrdy⟩ := hx
  simp [tick_of_reqRdy hrdy, hreq]

end NextRegisters

/-- Settles O37: from the registers after a cycle that transferred a response, and after one that transferred a request. -/
theorem transferredDataIsNotReused : Obligations.TransferredDataIsNotReused := by
  intro s hr
  refine ⟨_, step_eq_cycle hr, fun hresp => ?_, tick_of_reqXfer⟩
  obtain hidle | hreq := tick_of_respXfer hresp
  · exact .inl ⟨hidle, settle_respVal_of_idle hidle⟩
  · exact .inr ⟨hreq, tick_of_reqXfer hreq⟩

/-! ## Requests that are refused, and payloads that are not valid (R38, R39) -/

/-- The step of a cycle with `req_rdy` = 0 reads nothing of the request port. -/
theorem step_eq_of_refused (s : State) {i i' : Inputs} (rest : List Inputs) (hr : i.reset = false) (hr' : i'.reset = false)
    (hd : i.respRdy = i'.respRdy) (hrdy : (settle Config.dontCare s.regs i).reqRdy = false) :
    step { s with stim := i :: rest } = step { s with stim := i' :: rest } := by
  have hrdy' : (settle Config.dontCare s.regs i').reqRdy = false := settle_reqRdy_congr hd ▸ hrdy
  have hports : portsOf Config.dontCare s.regs i = portsOf Config.dontCare s.regs i' :=
    portsOf_eq_of_no_request hd (by simp [portsOf_request, hrdy]) (by simp [portsOf_request, hrdy'])
  rw [step_eq_cycle (s := { s with stim := i :: rest }) hr, step_eq_cycle (s := { s with stim := i' :: rest }) hr']
  simp only [State.inputs_mk_cons, tick_eq_of_refused hrdy hd, hports]
  rfl

/-- Settles O38: a refusing cycle reads nothing of the request port. -/
theorem refusedRequestLeavesNoTrace : Obligations.RefusedRequestLeavesNoTrace := fun s _ _ rest hr hr' hd hrdy =>
  step_eq_of_refused s rest hr hr' hd hrdy

theorem runsTo_succ_of_step {s u : State} (h : step s = .next u) (k : Nat) (t : State) :
    runsTo (k + 1) s t ↔ runsTo k u t := by
  rw [runsTo_succ]
  exact ⟨fun ⟨_, hv, hrun⟩ => by cases h.symm.trans hv; exact hrun, fun hrun => ⟨u, h, hrun⟩⟩

/-- A cycle that is ready for a request and gets none goes to IDLE with the payload pins in A and B. -/
theorem step_of_ready_without_request {s : State} (hr : s.inputs.reset = false) (hv : s.inputs.reqVal = false)
    (hrdy : s.signals.reqRdy = true) :
    step s = .next (s.endCycle { fsm := .idle, a := s.inputs.reqA, b := s.inputs.reqB }
      (portsOf Config.dontCare s.regs s.inputs)) := by
  rw [step_eq_cycle hr, tick_of_reqRdy hrdy, hv]
  rfl

/-- If the cycle is ready for a request and the next has `reset` low, the payload under `req_val` = 0 is in A and B for one IDLE
cycle, which overwrites it unread. -/
theorem runsTo_congr_of_ready_without_request {s : State} {i : Inputs} {rest : List Inputs} (a b : Word) (hv : i.reqVal = false)
    (hnr : noReset 2 { s with stim := i :: rest }) (hrdy : (settle Config.dontCare s.regs i).reqRdy = true) (k : Nat) (t : State) :
    runsTo (k + 2) { s with stim := i :: rest } t ↔
      runsTo (k + 2) { s with stim := { i with reqA := a, reqB := b } :: rest } t := by
  have hr : i.reset = false := hnr 0 (by omega)
  have hstep := step_of_ready_without_request (s := { s with stim := i :: rest }) hr hv hrdy
  have hstep' := step_of_ready_without_request (s := { s with stim := { i with reqA := a, reqB := b } :: rest }) hr hv hrdy
  have hports : portsOf Config.dontCare s.regs i = portsOf Config.dontCare s.regs { i with reqA := a, reqB := b } :=
    portsOf_eq_of_no_request rfl (by simp [portsOf_request, hv]) (by simp [portsOf_request, hv])
  have hnext := (congrArg Inputs.reset (inputAt_of_step hstep 0)).trans (hnr 1 (by omega))
  have hforget := step_of_idle_eq_step_with_operands hnext rfl a b
  rw [runsTo_succ_of_step hstep, runsTo_succ_of_step hstep', runsTo_succ_congr hforget]
  simp only [State.inputs_mk_cons, hports]
  rfl

/-- Settles O40: a refusing cycle does not read the payload; a ready one loads it and goes to IDLE, which forgets it. -/
theorem invalidPayloadIsNeverSeen : Obligations.InvalidPayloadIsNeverSeen := by
  intro s i a b rest k hv hnr
  have hr : i.reset = false := hnr 0 (by omega)
  obtain ⟨t, ht⟩ := exists_runsTo (k + 2) { s with stim := i :: rest }
  refine ⟨t, ht, ?_⟩
  cases hrdy : (settle Config.dontCare s.regs i).reqRdy
  case false =>
    have hstep := step_eq_of_refused s (i' := { i with reqA := a, reqB := b }) rest hr hr rfl hrdy
    exact (runsTo_succ_congr hstep (k + 1) t).1 ht
  case true => exact (runsTo_congr_of_ready_without_request a b hv hnr hrdy k t).1 ht

/-! ## Offers that are held (R34, R35) -/

theorem noReset_of_step {k : Nat} {s t : State} (h : step s = .next t) (hnr : noReset (k + 1) s) : noReset k t :=
  fun j hj => inputAt_of_step h j ▸ hnr (j + 1) (by omega)

theorem fsm_ne_idle_of_respVal {s : State} (hv : s.signals.respVal = true) : s.regs.fsm ≠ .idle :=
  fun hf => by simp [State.signals, settle_respVal_of_idle hf] at hv

/-- A step in which an offered response is not taken offers it again, with the same value. -/
theorem step_holds_response {s : State} (hr : s.inputs.reset = false) (hv : s.signals.respVal = true)
    (hd : s.inputs.respRdy = false) :
    ∃ t, step s = .next t ∧ t.signals.respVal = true ∧ t.signals.respValue = s.signals.respValue := by
  have hregs : tick Config.dontCare s.regs s.inputs = { s.regs with fsm := .done } := tick_of_stalled hv hd
  refine ⟨_, step_eq_cycle hr, ?_, ?_⟩ <;> rw [hregs]
  · exact settle_respVal_of_done rfl
  · exact (settle_respValue_of_not_idle (by simp)).trans (settle_respValue_of_not_idle (fsm_ne_idle_of_respVal hv)).symm

/-- Settles O35, by induction on the number of stalled cycles. -/
theorem responseIsHeldUntilTaken : Obligations.ResponseIsHeldUntilTaken := by
  intro k
  induction k with
  | zero => exact fun s hv _ _ => ⟨s, (runsTo_zero s s).2 rfl, hv, rfl⟩
  | succ k ih =>
    intro s hv hnr hwait
    obtain ⟨u, hstep, huv, hval⟩ := step_holds_response (hnr 0 (by omega)) hv (hwait 0 (by omega))
    obtain ⟨t, hrun, htv, htval⟩ :=
      ih u huv (noReset_of_step hstep hnr) fun j hj => inputAt_of_step hstep j ▸ hwait (j + 1) (by omega)
    exact ⟨t, (runsTo_succ_of_step hstep k t).2 hrun, htv, htval.trans hval⟩

/-- A run of `k + 1` cycles is a run of `k` cycles and then a step. -/
theorem runsTo_succ_last (k : Nat) (s t : State) : runsTo (k + 1) s t ↔ ∃ u, runsTo k s u ∧ step u = .next t := by
  simp only [runsTo_add k 1, runsTo_succ 0, runsTo_zero, exists_eq_right]

/-- After a run of `k` cycles every later input vector is `k` cycles nearer. -/
theorem inputAt_of_runsTo {k : Nat} {s t : State} (h : runsTo k s t) (j : Nat) : t.inputAt j = s.inputAt (k + j) := by
  induction k generalizing t j with
  | zero => simp [← (runsTo_zero s t).1 h]
  | succ k ih =>
    obtain ⟨u, hu, hstep⟩ := (runsTo_succ_last k s t).1 h
    rw [inputAt_of_step hstep, ih hu, show k + (j + 1) = k + 1 + j by omega]

/-- While the unit refuses it, a producer that keeps its duty goes on offering the same pair. -/
theorem offer_is_repeated {k : Nat} {s t : State} (hv : s.inputs.reqVal = true) (hduty : producerKeepsDuty k s)
    (hrefused : ∀ j < k, ∀ u, runsTo j s u → u.signals.reqRdy = false) {j : Nat} (hj : j ≤ k) (ht : runsTo j s t) :
    t.inputs.reqVal = true ∧ requestOf t.inputs = requestOf s.inputs := by
  induction j generalizing t with
  | zero => obtain rfl := (runsTo_zero s t).1 ht; exact ⟨hv, rfl⟩
  | succ j ih =>
    obtain ⟨u, hu, hstep⟩ := (runsTo_succ_last j s t).1 ht
    obtain ⟨huv, hureq⟩ := ih (by omega) hu
    obtain ⟨hnv, hnreq⟩ := hduty j hj u hu huv (hrefused j hj u hu)
    have hin : t.inputs = u.inputAt 1 := inputAt_of_step hstep 0
    exact hin ▸ ⟨hnv, hnreq.trans hureq⟩

/-- Settles O43: the pair is still on the pins in the cycle that is ready, and that cycle transfers what the pins show. -/
theorem dutyDeliversTheOfferedPair : Obligations.DutyDeliversTheOfferedPair := by
  intro k s t hnr hv hduty hrefused ht hrdy
  obtain ⟨htv, htreq⟩ := offer_is_repeated hv hduty hrefused le_rfl ht
  have hin : t.inputs = s.inputAt k := inputAt_of_runsTo ht 0
  have hr : t.inputs.reset = false := hin ▸ hnr k (by omega)
  have hxfer : (portsOf Config.dontCare t.regs t.inputs).request = some (requestOf s.inputs) := by
    rw [portsOf_request, if_pos ⟨htv, hrdy⟩, htreq]
  exact ⟨_, step_eq_cycle hr, congrArg some hxfer⟩

end Sys2Proof.Machine

/-! PROOFS. The encoding family (spec/30_encoding.md): the fields of a key and of a record or stimulus word come back from the packed
form and rebuild it, so that decoder and encoder are inverse; which kind each condition selects; and the table row of each kind's issue. -/

namespace Sys2Proof

/-! ## Keys are packed from their fields (R56) -/

theorem bit_getLsbD {n : Nat} (w : BitVec n) (j : Nat) : bit (w.getLsbD j) = w.extractLsb' j 1 := by
  apply BitVec.eq_of_getLsbD_eq
  intro l hl
  obtain rfl : l = 0 := by omega
  simp [bit]

theorem Fsm.ofCode_eq_some_iff (c : BitVec 2) (f : Fsm) : Fsm.ofCode c = some f ↔ c = f.code := by
  revert c
  cases f <;> decide

theorem Fsm.ofCode_eq_none_iff (c : BitVec 2) : Fsm.ofCode c = none ↔ c = 0b11#2 := by
  revert c
  decide

theorem wfKey_iff (k : BitVec 6) : wfKey k = true ↔ k.extractLsb' 4 2 ≠ 0b11#2 := by
  simp [wfKey]

/-- A key is the packing of its own fields: state code, `finished`, `swap`, `resp_rdy`, `req_val`. -/
theorem packKey_fields {k : BitVec 6} {f : Fsm} (hf : k.extractLsb' 4 2 = f.code) :
    packKey f (k.getLsbD 3) (k.getLsbD 2) (k.getLsbD 1) (k.getLsbD 0) = k := by
  rw [packKey, ← hf, bit_getLsbD, bit_getLsbD, bit_getLsbD, bit_getLsbD,
    BitVec.extractLsb'_append_extractLsb'_eq_extractLsb' (start₂ := 4) (start₁ := 3) rfl,
    BitVec.extractLsb'_append_extractLsb'_eq_extractLsb' (start₂ := 3) (start₁ := 2) rfl,
    BitVec.extractLsb'_append_extractLsb'_eq_extractLsb' (start₂ := 2) (start₁ := 1) rfl,
    BitVec.extractLsb'_append_extractLsb'_eq_extractLsb' (start₂ := 1) (start₁ := 0) rfl]
  exact BitVec.extractLsb'_eq_self

/-- Every key without the reserved state code is a packed one (R14, R57). -/
theorem exists_packKey_of_wfKey {k : BitVec 6} (h : wfKey k = true) :
    ∃ f fin sw rr rv, k = packKey f fin sw rr rv := by
  cases hf : Fsm.ofCode (k.extractLsb' 4 2) with
  | none => exact absurd ((Fsm.ofCode_eq_none_iff _).1 hf) ((wfKey_iff k).1 h)
  | some f => exact ⟨f, _, _, _, _, (packKey_fields ((Fsm.ofCode_eq_some_iff _ f).1 hf)).symm⟩

section PackedFields

variable (f : Fsm) (fin sw rr rv : Bool)

@[simp] theorem packKey_state : (packKey f fin sw rr rv).extractLsb' 4 2 = f.code := by
  show BitVec.extractLsb' 4 2 (f.code ++ bit fin ++ bit sw ++ bit rr ++ bit rv) = _
  simp [↓BitVec.extractLsb'_append_eq_of_le]

theorem getLsbD_packKey (j : Nat) (hj : j < 4) :
    (packKey f fin sw rr rv).getLsbD j = if j = 0 then rv else if j = 1 then rr else if j = 2 then sw else fin := by
  show BitVec.getLsbD (f.code ++ bit fin ++ bit sw ++ bit rr ++ bit rv) j = _
  interval_cases j <;> simp [↓BitVec.getLsbD_append, bit]

@[simp] theorem packKey_finished : (packKey f fin sw rr rv).getLsbD 3 = fin := getLsbD_packKey f fin sw rr rv 3 (by decide)
@[simp] theorem packKey_swap : (packKey f fin sw rr rv).getLsbD 2 = sw := getLsbD_packKey f fin sw rr rv 2 (by decide)
@[simp] theorem packKey_respRdy : (packKey f fin sw rr rv).getLsbD 1 = rr := getLsbD_packKey f fin sw rr rv 1 (by decide)
@[simp] theorem packKey_reqVal : (packKey f fin sw rr rv).getLsbD 0 = rv := getLsbD_packKey f fin sw rr rv 0 (by decide)

end PackedFields

/-! ## Decoder and encoder (R57, R58) -/

theorem decode_eq_error_iff (k : BitVec 6) : decode k = .error .reservedState ↔ wfKey k = false := by
  rw [← Bool.not_eq_true, wfKey_iff, not_not, ← Fsm.ofCode_eq_none_iff]
  cases hf : Fsm.ofCode (k.extractLsb' 4 2) with
  | none => simp [decode, hf]
  | some f => cases f <;> simp [decode, hf]

theorem wfKey_of_decode {k : BitVec 6} {i : Instr} (h : decode k = .ok i) : wfKey k = true := by
  by_contra hk
  rw [(decode_eq_error_iff k).2 (Bool.not_eq_true _ ▸ hk)] at h
  cases h

theorem decode_encode (i : Instr) : decode (encode i) = .ok i := by
  cases i with
  | idleWait fin sw rr => exact Laws.DecodeEncode.idleWait fin sw rr
  | idleAccept fin sw rr => exact Laws.DecodeEncode.idleAccept fin sw rr
  | subA rr rv => exact Laws.DecodeEncode.subA rr rv
  | subB rr rv => exact Laws.DecodeEncode.subB rr rv
  | finStall sw rv => exact Laws.DecodeEncode.finStall sw rv
  | finDrain sw => exact Laws.DecodeEncode.finDrain sw
  | finChain sw => exact Laws.DecodeEncode.finChain sw
  | doneStall fin sw rv => exact Laws.DecodeEncode.doneStall fin sw rv
  | doneDrain fin sw rv => exact Laws.DecodeEncode.doneDrain fin sw rv

section DecodedFields

variable (fin sw rr rv : Bool)

theorem encode_decodeIdle : encode (decodeIdle fin sw rr rv) = packKey .idle fin sw rr rv := by
  cases rv <;> rfl

theorem encode_decodeCalc : encode (decodeCalc fin sw rr rv) = packKey .calc fin sw rr rv := by
  cases fin
  · cases sw <;> rfl
  · cases rr
    · rfl
    · cases rv <;> cases sw <;> rfl

theorem encode_decodeDone : encode (decodeDone fin sw rr rv) = packKey .done fin sw rr rv := by
  cases rr <;> rfl

end DecodedFields

/-- What decodes to a kind is that kind's key and nothing else: no bit of a key is dropped or invented. -/
theorem encode_of_decode {k : BitVec 6} {i : Instr} (h : decode k = .ok i) : encode i = k := by
  obtain ⟨f, fin, sw, rr, rv, rfl⟩ := exists_packKey_of_wfKey (wfKey_of_decode h)
  rw [decode_packKey] at h
  cases h
  cases f
  · exact encode_decodeIdle fin sw rr rv
  · exact encode_decodeCalc fin sw rr rv
  · exact encode_decodeDone fin sw rr rv

/-- Settles O1: from a kind to its key and back kind by kind, and from a key back to itself by the fields it is packed from. -/
theorem cycleKindKeysRoundTrip : Obligations.CycleKindKeysRoundTrip :=
  ⟨decode_encode, fun _ _ => encode_of_decode⟩

/-! ## Rows of the opcode table (R57) -/

theorem tableRows_of_encode (i : Instr) :
    (opcodeTable.filter (OpcodeRow.matchesKey · (encode i))).map OpcodeRow.mnemonic = [i.mnemonic] := by
  cases i with
  | idleWait fin sw rr => exact Laws.TableRow.idleWait fin sw rr
  | idleAccept fin sw rr => exact Laws.TableRow.idleAccept fin sw rr
  | subA rr rv => exact Laws.TableRow.subA rr rv
  | subB rr rv => exact Laws.TableRow.subB rr rv
  | finStall sw rv => exact Laws.TableRow.finStall sw rv
  | finDrain sw => exact Laws.TableRow.finDrain sw
  | finChain sw => exact Laws.TableRow.finChain sw
  | doneStall fin sw rv => exact Laws.TableRow.doneStall fin sw rv
  | doneDrain fin sw rv => exact Laws.TableRow.doneDrain fin sw rv

/-- Every row fixes both bits of the state code, and to one that is not reserved. -/
theorem opcodeTable_fixes_state :
    ∀ row ∈ opcodeTable, row.mask.extractLsb' 4 2 = 0b11#2 ∧ row.pattern.extractLsb' 4 2 ≠ 0b11#2 := by
  decide

theorem tableRows_of_not_wfKey {k : BitVec 6} (h : wfKey k = false) :
    opcodeTable.filter (OpcodeRow.matchesKey · k) = [] := by
  have hk : k.extractLsb' 4 2 = 0b11#2 := by simpa [wfKey] using h
  refine List.filter_eq_nil_iff.2 fun row hrow hmatch => ?_
  obtain ⟨hmask, hpattern⟩ := opcodeTable_fixes_state row hrow
  refine hpattern ?_
  rw [← beq_iff_eq.1 hmatch, BitVec.extractLsb'_and, hk, hmask]
  rfl

theorem exists_decode_of_wfKey {k : BitVec 6} (h : wfKey k = true) : ∃ i, decode k = .ok i := by
  obtain ⟨f, fin, sw, rr, rv, rfl⟩ := exists_packKey_of_wfKey h
  exact ⟨_, decode_packKey f fin sw rr rv⟩

/-- Settles O2: a legal key is the key of the kind it decodes to, so it has that kind's row; a reserved one meets no row's state code. -/
theorem everyLegalKeyMatchesOneRow : Obligations.EveryLegalKeyMatchesOneRow := by
  refine fun k => ⟨fun h => ?_, fun h => ⟨(decode_eq_error_iff k).2 h, tableRows_of_not_wfKey h⟩⟩
  obtain ⟨i, hi⟩ := exists_decode_of_wfKey h
  exact ⟨i, hi, encode_of_decode hi ▸ tableRows_of_encode i⟩

/-- Settles O3: each key is, bit for bit, the encoding of the kind it stands for. -/
theorem writtenOutKeysDecode : Obligations.WrittenOutKeysDecode :=
  ⟨decode_encode (.idleWait false true false), decode_encode (.idleAccept false true false),
    decode_encode (.subA true true), decode_encode (.subB true true), decode_encode (.finStall true true),
    decode_encode (.finDrain true), decode_encode (.finChain true), decode_encode (.doneStall true true true),
    decode_encode (.doneDrain true true true)⟩

/-! ## Records (R50, R51) -/

theorem Request.unpack_pack (q : Request) : Request.unpack q.pack = q := by
  have ha : q.pack.extractLsb' 16 16 = q.a := BitVec.extractLsb'_append_eq_left
  have hb : q.pack.extractLsb' 0 16 = q.b := BitVec.extractLsb'_append_eq_right
  simp only [Request.unpack, ha, hb]

theorem Request.pack_unpack (w : BitVec 32) : (Request.unpack w).pack = w :=
  (BitVec.extractLsb'_append_extractLsb'_eq_extractLsb' rfl).trans BitVec.extractLsb'_eq_self

theorem Request.toNat_pack (q : Request) : q.pack.toNat = q.a.toNat * 65536 + q.b.toNat := by
  rw [Request.pack, BitVec.toNat_append, ← Nat.shiftLeft_add_eq_or_of_lt q.b.isLt, Nat.shiftLeft_eq]

/-- Settles O5: the halves of a packed request are its operands; a packed response is its value. -/
theorem recordPacking : Obligations.RecordPacking :=
  ⟨fun q => ⟨q.unpack_pack, q.toNat_pack⟩, Request.pack_unpack, fun _ => ⟨rfl, rfl⟩, fun _ => rfl⟩

/-! ## Stimulus words (R61, R62) -/

section StimulusWord

variable (rv rr : Bool) (q : Request)

theorem stimulusWord_reqVal : (stimulusWord rv rr q).getLsbD 33 = rv := getLsbD_stimulusWord rv rr q 33

theorem stimulusWord_respRdy : (stimulusWord rv rr q).getLsbD 32 = rr := getLsbD_stimulusWord rv rr q 32

theorem stimulusWord_payload : (stimulusWord rv rr q).extractLsb' 0 32 = q.pack := BitVec.extractLsb'_append_eq_right

theorem stimulusWord_operands :
    (stimulusWord rv rr q).extractLsb' 16 16 = q.a ∧ (stimulusWord rv rr q).extractLsb' 0 16 = q.b := by
  constructor
  · calc (stimulusWord rv rr q).extractLsb' 16 16
      _ = q.pack.extractLsb' 16 16 := BitVec.extractLsb'_append_eq_of_add_le (by decide)
      _ = q.a := BitVec.extractLsb'_append_eq_left
  · calc (stimulusWord rv rr q).extractLsb' 0 16
      _ = q.pack.extractLsb' 0 16 := BitVec.extractLsb'_append_eq_of_add_le (by decide)
      _ = q.b := BitVec.extractLsb'_append_eq_right

theorem decode_stimulusWord : Inputs.decode (stimulusWord rv rr q) = Inputs.line rv q.a q.b rr := by
  simp only [Inputs.decode, stimulusWord_payload, Request.unpack_pack, stimulusWord_reqVal, stimulusWord_respRdy, Inputs.line]

end StimulusWord

/-- A 34-bit word is the stimulus word of its two top bits and the record in the rest. -/
theorem stimulusWord_fields (w : BitVec 34) :
    stimulusWord (w.getLsbD 33) (w.getLsbD 32) (Request.unpack (w.extractLsb' 0 32)) = w := by
  rw [stimulusWord, Request.pack_unpack, bit_getLsbD, bit_getLsbD,
    BitVec.extractLsb'_append_extractLsb'_eq_extractLsb' (start₂ := 33) (start₁ := 32) rfl,
    BitVec.extractLsb'_append_extractLsb'_eq_extractLsb' (start₂ := 32) (start₁ := 0) rfl]
  exact BitVec.extractLsb'_eq_self

theorem Inputs.exists_line_of_encode {i : Inputs} {w : BitVec 34} (h : i.encode = some w) :
    i = Inputs.line i.reqVal i.reqA i.reqB i.respRdy ∧ w = stimulusWord i.reqVal i.respRdy { a := i.reqA, b := i.reqB } := by
  obtain ⟨reset, rv, rr, a, b⟩ := i
  cases reset
  case true => cases h
  case false => exact ⟨rfl, (Option.some.inj h).symm⟩

/-- Settles O4: the fields of a stimulus word stand at their bits, so the word and the line give each other back. -/
theorem stimulusWordLayout : Obligations.StimulusWordLayout := by
  refine ⟨fun w => congrArg some (stimulusWord_fields w), fun i w h => ?_, rfl⟩
  obtain ⟨hline, rfl⟩ := Inputs.exists_line_of_encode h
  obtain ⟨ha, hb⟩ := stimulusWord_operands i.reqVal i.respRdy { a := i.reqA, b := i.reqB }
  exact ⟨(decode_stimulusWord ..).trans hline.symm, stimulusWord_reqVal .., stimulusWord_respRdy .., ha, hb⟩

end Sys2Proof

namespace Sys2Proof.Machine

/-! ## Which kind a state selects (R57) -/

theorem decode_key_of_calc {s : State} (hf : s.regs.fsm = .calc) :
    decode s.key =
      .ok (decodeCalc (compare s.regs).finished (compare s.regs).swap s.inputs.respRdy s.inputs.reqVal) := by
  rw [decode_key, hf]

theorem decode_key_of_done {s : State} (hf : s.regs.fsm = .done) :
    decode s.key =
      .ok (decodeDone (compare s.regs).finished (compare s.regs).swap s.inputs.respRdy s.inputs.reqVal) := by
  rw [decode_key, hf]

theorem compare_finished_iff_toNat (r : Regs) : (compare r).finished = true ↔ r.a.toNat = 0 ∨ r.b.toNat = 0 := by
  rw [compare_finished, Regs.isFinished, word_eq_zero, word_eq_zero]

theorem compare_swap_iff_toNat (r : Regs) : (compare r).swap = true ↔ r.a.toNat < r.b.toNat := by
  rw [compare_swap, word_lt]

theorem compare_of_le {r : Regs} (hb : 1 ≤ r.b.toNat) (hba : r.b.toNat ≤ r.a.toNat) :
    (compare r).finished = false ∧ (compare r).swap = false := by
  rw [← Bool.not_eq_true, ← Bool.not_eq_true, compare_finished_iff_toNat, compare_swap_iff_toNat]
  omega

theorem compare_of_lt {r : Regs} (ha : 1 ≤ r.a.toNat) (hab : r.a.toNat < r.b.toNat) :
    (compare r).finished = false ∧ (compare r).swap = true := by
  rw [← Bool.not_eq_true, compare_finished_iff_toNat, compare_swap_iff_toNat]
  omega

section Selection

variable {s : State}

theorem decode_key_of_unfinished (hf : s.regs.fsm = .calc) (hfin : (compare s.regs).finished = false) :
    decode s.key =
      .ok (if (compare s.regs).swap then .subB s.inputs.respRdy s.inputs.reqVal else .subA s.inputs.respRdy s.inputs.reqVal) := by
  rw [decode_key_of_calc hf, hfin]
  rfl

theorem decode_key_of_finished (hf : s.regs.fsm = .calc) (hfin : s.regs.isFinished) :
    decode s.key =
      .ok (if s.inputs.respRdy then
          (if s.inputs.reqVal then .finChain (compare s.regs).swap else .finDrain (compare s.regs).swap)
        else .finStall (compare s.regs).swap s.inputs.reqVal) := by
  rw [decode_key_of_calc hf, (compare_finished s.regs).2 hfin]
  rfl

end Selection

/-- Settles O17: the decoder's branches, their flags read as conditions on the numbers in A and B. -/
theorem kindSelection : Obligations.KindSelection := by
  refine fun s => ⟨?idleWait, ?idleAccept, ?subA, ?subB, ?finStall, ?finDrain, ?finChain, ?doneStall, ?doneDrain⟩
  case idleWait | idleAccept =>
    rintro ⟨hf, hv⟩
    rw [decode_key_of_idle hf, hv]
    rfl
  case subA =>
    rintro ⟨hf, hb, hba⟩
    obtain ⟨hfin, hsw⟩ := compare_of_le hb hba
    rw [decode_key_of_unfinished hf hfin, hsw]
    rfl
  case subB =>
    rintro ⟨hf, ha, hab⟩
    obtain ⟨hfin, hsw⟩ := compare_of_lt ha hab
    rw [decode_key_of_unfinished hf hfin, hsw]
    rfl
  case finStall =>
    rintro ⟨hf, hfin, hd⟩
    rw [decode_key_of_finished hf hfin, hd]
    rfl
  case finDrain | finChain =>
    rintro ⟨hf, hfin, hd, hv⟩
    rw [decode_key_of_finished hf hfin, hd, hv]
    rfl
  case doneStall | doneDrain =>
    rintro ⟨hf, hd⟩
    rw [decode_key_of_done hf, hd]
    rfl

/-! ## The fields of the key and the step (R56, R139) -/

theorem State.key_eq_packKey (s : State) :
    s.key = packKey s.regs.fsm (compare s.regs).finished (compare s.regs).swap s.inputs.respRdy s.inputs.reqVal := rfl

theorem step_eq_exec {s : State} {i : Instr} (hr : s.inputs.reset = false) (hi : decode s.key = .ok i) :
    step s = exec i s := by
  simp [step, hr, hi]

/-- Settles O27: `step` dispatches on the decoded kind; the key's bits are the fields it is packed from. -/
theorem stepRunsTheSelectedKind : Obligations.StepRunsTheSelectedKind := by
  intro s
  refine ⟨fun _ => step_eq_exec, ?_⟩
  simp only [State.key_eq_packKey, packKey_state, packKey_finished, packKey_swap, packKey_respRdy, packKey_reqVal]
  exact ⟨trivial, compare_finished_iff_toNat s.regs, compare_swap_iff_toNat s.regs, trivial, trivial⟩

/-! ## The rows of R57 -/

/-- What a cycle issues, with its control bundle as the word CW: a row in the form of R57's table. -/
def Issue.row (k : Issue) : KindRow :=
  ⟨k.reqRdy, k.respVal, k.control.word Config.dontCare, k.reqXfer, k.respXfer, k.next⟩

/-- The wires and the next state of a cycle, as a row. -/
theorem State.row_issue (s : State) :
    s.issue.row =
      ⟨s.signals.reqRdy, s.signals.respVal, s.signals.control.word Config.dontCare, s.signals.reqXfer, s.signals.respXfer,
        nextFsm s.regs s.inputs s.signals⟩ := rfl

theorem outSelOf_code (dc : Config.DontCare) (f : Flags) : (outSelOf f).code dc = f.doSub := by
  cases h : f.isBZero <;> simp [outSelOf, Flags.doSub, h, OutSel.code]

theorem subSelOf_code (dc : Config.DontCare) (f : Flags) : (subSelOf f).code dc = f.swap := by
  cases h : f.swap <;> simp [subSelOf, h, SubSel.code]

theorem finHoldControl_word (dc : Config.DontCare) (f : Flags) :
    (finHoldControl f).word dc = 0b0000#4 ++ bit f.doSub ++ bit f.swap := by
  simp only [finHoldControl, Control.word, outSelOf_code, subSelOf_code]
  rfl

theorem finLoadControl_word (dc : Config.DontCare) (f : Flags) :
    (finLoadControl f).word dc = 0b1010#4 ++ bit f.doSub ++ bit f.swap := by
  simp only [finLoadControl, Control.word, outSelOf_code, subSelOf_code]
  rfl

theorem doneControl_word (f : Flags) :
    (doneControl f).word Config.dontCare = 0b0000#4 ++ bit f.doSub ++ 0b0#1 := by
  simp only [doneControl, Control.word, outSelOf_code]
  rfl

/-- Settles O16: state by state, the issue of the control FSM's equations is the row of the kind that the key selects. -/
theorem signalsFollowTheKindTable : Obligations.SignalsFollowTheKindTable := by
  intro s i hi
  rw [← State.row_issue, State.signals_doSub, State.signals_swap]
  cases hf : s.regs.fsm
  case idle =>
    rw [decode_key_of_idle hf] at hi
    cases hi
    rw [State.issue_of_idle hf]
    cases s.inputs.reqVal <;> rfl
  case done =>
    rw [decode_key_of_done hf] at hi
    cases hi
    rw [State.issue_of_done hf, Issue.row, doneControl_word]
    cases s.inputs.respRdy <;> rfl
  cases hfin : (compare s.regs).finished
  case false =>
    rw [decode_key_of_unfinished hf hfin] at hi
    cases hi
    rw [State.issue_of_unfinished hf hfin]
    cases (compare s.regs).swap <;> rfl
  case true =>
    rw [decode_key_of_finished hf ((compare_finished s.regs).1 hfin)] at hi
    cases hi
    rw [State.issue_of_finished hf hfin]
    cases s.inputs.respRdy
    case false => simp [Issue.row, finHoldControl_word, kindRow]
    case true => cases s.inputs.reqVal <;> simp [Issue.row, finLoadControl_word, kindRow]

end Sys2Proof.Machine

/-! PROOFS. The datapath family (spec/40_datapath.md): what the subtractor, the input multiplexers and the register loads give for each
select and enable; which control word each FSM state issues; and so which differences reach a register and which register is offered. -/

namespace Sys2Proof.Machine

/-! ## Subtractor (R71) -/

/-- The difference modulo 65536, on numbers. -/
theorem sub16_toNat (x y : Word) : (sub16 x y).toNat = (x.toNat + 65536 - y.toNat) % 65536 := by
  rw [sub16, BitVec.toNat_sub]
  have := y.isLt
  congr 1
  omega

section Datapath

variable {dc : Config.DontCare} {c : Control} {r : Regs} {i : Inputs}

theorem subOut_of_aMinusB (h : c.subSel = .aMinusB) : subOut dc c r = sub16 r.a r.b := by
  rw [subOut, h]
  rfl

theorem subOut_of_bMinusA (h : c.subSel = .bMinusA) : subOut dc c r = sub16 r.b r.a := by
  rw [subOut, h]
  rfl

/-- The spec's own resolution of a don't-care select is A minus B (D6). -/
theorem subOut_dontCare_of_dc (h : c.subSel = .dc) : subOut Config.dontCare c r = sub16 r.a r.b := by
  rw [subOut, h]
  rfl

/-! ## Input multiplexers and register loads (R73, R74, R75) -/

theorem operandSel_code_of_req_or_dc {sel : OperandSel} (h : sel = .req ∨ sel = .dc) : sel.code = false := by
  rcases h with rfl | rfl <;> rfl

theorem aMux_of_req_or_dc (h : c.aSel = .req ∨ c.aSel = .dc) : aMux dc c r i = i.reqA := by
  rw [aMux, operandSel_code_of_req_or_dc h, mux2_false]

theorem bMux_of_req_or_dc (h : c.bSel = .req ∨ c.bSel = .dc) : bMux dc c r i = i.reqB := by
  rw [bMux, operandSel_code_of_req_or_dc h, mux2_false]

theorem aMux_of_sub (h : c.aSel = .sub) : aMux dc c r i = subOut dc c r := by
  rw [aMux, h]
  rfl

theorem bMux_of_sub (h : c.bSel = .sub) : bMux dc c r i = subOut dc c r := by
  rw [bMux, h]
  rfl

theorem aLoad_of_enabled (h : c.aEn = true) : aLoad dc c r i = aMux dc c r i := if_pos h

theorem bLoad_of_enabled (h : c.bEn = true) : bLoad dc c r i = bMux dc c r i := if_pos h

theorem aLoad_of_disabled (h : c.aEn = false) : aLoad dc c r i = r.a := if_neg (Bool.eq_false_iff.1 h)

theorem bLoad_of_disabled (h : c.bEn = false) : bLoad dc c r i = r.b := if_neg (Bool.eq_false_iff.1 h)

/-! ## The control word of each FSM state (R91, R92, R93) -/

theorem settle_control_of_idle (hf : r.fsm = .idle) : (settle dc r i).control = idleControl := by
  simp [settle, fsmOut, hf, idleOut, idleControl]

theorem settle_control_of_done (hf : r.fsm = .done) : (settle dc r i).control = doneControl (compare r) := by
  simp [settle, fsmOut, hf, doneOut, doneControl, outSelOf]

theorem settle_control_of_finished (hf : r.fsm = .calc) (hfin : (compare r).finished = true) :
    (settle dc r i).control = if i.respRdy then finLoadControl (compare r) else finHoldControl (compare r) := by
  cases hd : i.respRdy <;>
    simp [settle, fsmOut, hf, calcOut, hfin, hd, finLoadControl, finHoldControl, outSelOf, subSelOf]

/-- An unfinished CALC cycle has B nonzero, so that its `out_sel` is B, as SUB_A and SUB_B have it. -/
theorem settle_control_of_unfinished (hf : r.fsm = .calc) (hfin : (compare r).finished = false) :
    (settle dc r i).control = if (compare r).swap then subBControl else subAControl := by
  have hb : (compare r).isBZero = false := (Bool.or_eq_false_iff.1 hfin).2
  cases hsw : (compare r).swap <;>
    simp [settle, fsmOut, hf, calcOut, hfin, hb, hsw, subAControl, subBControl]

/-- No FSM state but an unfinished CALC selects the subtractor for a register. -/
theorem unfinished_of_selects_sub (h : (settle dc r i).control.aSel = .sub ∨ (settle dc r i).control.bSel = .sub) :
    r.fsm = .calc ∧ (compare r).finished = false := by
  cases hf : r.fsm
  case idle => simp [settle_control_of_idle hf, idleControl] at h
  case done => simp [settle_control_of_done hf, doneControl] at h
  cases hfin : (compare r).finished
  case false => exact ⟨rfl, rfl⟩
  rw [settle_control_of_finished hf hfin] at h
  cases hd : i.respRdy <;> simp [hd, finLoadControl, finHoldControl] at h

/-- `a_sel` is SUB only in the SUB_A cycle (R100). -/
theorem subA_of_aSel_sub (h : (settle dc r i).control.aSel = .sub) :
    r.fsm = .calc ∧ (compare r).finished = false ∧ (compare r).swap = false ∧ (settle dc r i).control = subAControl := by
  obtain ⟨hf, hfin⟩ := unfinished_of_selects_sub (.inl h)
  have hctl := settle_control_of_unfinished (dc := dc) (i := i) hf hfin
  cases hsw : (compare r).swap
  case false => exact ⟨hf, hfin, rfl, by rw [hctl, hsw]; rfl⟩
  case true => simp [hctl, hsw, subBControl] at h

/-- `b_sel` is SUB only in the SUB_B cycle (R101). -/
theorem subB_of_bSel_sub (h : (settle dc r i).control.bSel = .sub) :
    r.fsm = .calc ∧ (compare r).finished = false ∧ (compare r).swap = true ∧ (settle dc r i).control = subBControl := by
  obtain ⟨hf, hfin⟩ := unfinished_of_selects_sub (.inr h)
  have hctl := settle_control_of_unfinished (dc := dc) (i := i) hf hfin
  cases hsw : (compare r).swap
  case false => simp [hctl, hsw, subAControl] at h
  case true => exact ⟨hf, hfin, rfl, by rw [hctl, hsw]; rfl⟩

/-! ## The registers after the cycle boundary (R74, R75, R131) -/

theorem tick_a (dc : Config.DontCare) (r : Regs) (i : Inputs) : (tick dc r i).a = aLoad dc (settle dc r i).control r i := rfl

theorem tick_b (dc : Config.DontCare) (r : Regs) (i : Inputs) : (tick dc r i).b = bLoad dc (settle dc r i).control r i := rfl

theorem tick_a_of_subAControl (h : (settle dc r i).control = subAControl) : (tick dc r i).a = sub16 r.a r.b := by
  rw [tick_a, h, aLoad_of_enabled rfl, aMux_of_sub rfl, subOut_of_aMinusB rfl]

theorem tick_b_of_subBControl (h : (settle dc r i).control = subBControl) : (tick dc r i).b = sub16 r.b r.a := by
  rw [tick_b, h, bLoad_of_enabled rfl, bMux_of_sub rfl, subOut_of_bMinusA rfl]

/-! ## The offered response (R76) -/

/-- With one register zero, the selected one is the larger. -/
theorem foldedResult_toNat_of_finished (h : r.isFinished) : (foldedResult r).toNat = max r.a.toNat r.b.toNat := by
  by_cases hb : r.b = 0
  · rw [foldedResult, if_pos hb, (word_eq_zero r.b).1 hb, Nat.max_zero]
  · rw [foldedResult, if_neg hb, (word_eq_zero r.a).1 (h.resolve_right hb), Nat.zero_max]

theorem settle_respValue_of_respVal (h : (settle dc r i).respVal = true) : (settle dc r i).respValue = foldedResult r := by
  refine settle_respValue_of_not_idle fun hf => ?_
  rw [settle_respVal_of_idle hf] at h
  cases h

end Datapath

/-- Settles O9: a select of SUB names the kind of the cycle, SUB_A or SUB_B, and that kind's order of A and B excludes a borrow. -/
theorem loadedDifferenceNeverWraps : Obligations.LoadedDifferenceNeverWraps := by
  refine fun dc r i => ⟨fun ⟨_, hsel⟩ => ?_, fun ⟨_, hsel⟩ => ?_⟩
  · obtain ⟨hf, hfin, hsw, hctl⟩ := subA_of_aSel_sub hsel
    rw [← Bool.not_eq_true, compare_finished] at hfin
    rw [← Bool.not_eq_true, compare_swap_iff_toNat, not_lt] at hsw
    exact ⟨hf, hfin, hsw, by rw [tick_a_of_subAControl hctl, sub16_toNat_of_le (BitVec.le_def.2 hsw)]⟩
  · obtain ⟨hf, hfin, hsw, hctl⟩ := subB_of_bSel_sub hsel
    rw [← Bool.not_eq_true, compare_finished] at hfin
    rw [compare_swap_iff_toNat] at hsw
    have hb : (tick dc r i).b.toNat = r.b.toNat - r.a.toNat := by
      rw [tick_b_of_subBControl hctl, sub16_toNat_of_le (BitVec.le_def.2 hsw.le)]
    exact ⟨hf, hfin, hsw, hb, by omega⟩

/-- Settles O11: whatever offers a response takes `out_sel` from the flags, and the selected register is the larger once finished. -/
theorem outputIsTheNonZeroRegister : Obligations.OutputIsTheNonZeroRegister := by
  intro dc r i hv
  rw [settle_respValue_of_respVal hv]
  exact ⟨rfl, foldedResult_toNat_of_finished⟩

/-- Settles O8: the subtractor by its select, each difference on numbers. -/
theorem subtractorIsModulo65536 : Obligations.SubtractorIsModulo65536 := by
  refine fun dc c r => ⟨fun h => ?_, fun h => ?_, fun h => ?_⟩
  · rw [subOut_of_aMinusB h, sub16_toNat]
  · rw [subOut_of_bMinusA h, sub16_toNat]
  · rw [subOut_dontCare_of_dc h, sub16_toNat]

/-- Settles O10: the multiplexers by their selects and the loads by their enables. -/
theorem operandLoads : Obligations.OperandLoads := fun _ _ _ _ =>
  ⟨aMux_of_req_or_dc, aMux_of_sub, aLoad_of_enabled, aLoad_of_disabled,
    bMux_of_req_or_dc, bMux_of_sub, bLoad_of_enabled, bLoad_of_disabled⟩

end Sys2Proof.Machine

/-! PROOFS. The control FSM family (spec/41_control_fsm.md): what each of the nine kinds does, from the control word it issues; the
outputs of each FSM state on the numbers in A and B; the next state; and how DONE waits for the consumer. -/

namespace Sys2Proof.Machine

/-! ## What a control word does to the registers and to `resp_value` (R57) -/

section ControlWords

variable (dc : Config.DontCare) (f : Flags) (n : Fsm) (r : Regs) (i : Inputs)

@[simp] theorem commitRegs_idleControl : commitRegs dc idleControl n r i = ⟨n, i.reqA, i.reqB⟩ := rfl

@[simp] theorem commitRegs_subAControl : commitRegs dc subAControl n r i = ⟨n, r.a - r.b, r.b⟩ := rfl

@[simp] theorem commitRegs_subBControl : commitRegs dc subBControl n r i = ⟨n, r.a, r.b - r.a⟩ := rfl

@[simp] theorem commitRegs_finHoldControl : commitRegs dc (finHoldControl f) n r i = ⟨n, r.a, r.b⟩ := rfl

@[simp] theorem commitRegs_finLoadControl : commitRegs dc (finLoadControl f) n r i = ⟨n, i.reqA, i.reqB⟩ := rfl

@[simp] theorem commitRegs_doneControl : commitRegs dc (doneControl f) n r i = ⟨n, r.a, r.b⟩ := rfl

@[simp] theorem outMux_finLoadControl :
    outMux dc (finLoadControl (compare r)) r = if r.b = 0 then r.a else r.b := outMux_outSelOf dc _ r rfl

@[simp] theorem outMux_doneControl :
    outMux dc (doneControl (compare r)) r = if r.b = 0 then r.a else r.b := outMux_outSelOf dc _ r rfl

end ControlWords

/-! ## The nine cycle kinds (R98 to R106) -/

/-- Settles O18: the control word of R91 loads the pins. -/
theorem idleWaitCycle : Obligations.IdleWaitCycle := by
  intro s fin sw rr
  simp [exec, execIdleWait, State.runCycle, State.endCycle]

/-- Settles O19: the control word of R91 loads the pins. -/
theorem idleAcceptCycle : Obligations.IdleAcceptCycle := by
  intro s fin sw rr
  simp [exec, execIdleAccept, State.runCycle, State.endCycle, requestOf]

/-- Settles O20: the control word of R100 loads A from the subtractor. -/
theorem subACycle : Obligations.SubACycle := by
  intro s rr rv
  simp [exec, execSubA, State.runCycle, State.endCycle]

/-- Settles O21: the control word of R101 loads B from the subtractor. -/
theorem subBCycle : Obligations.SubBCycle := by
  intro s rr rv
  simp [exec, execSubB, State.runCycle, State.endCycle]

/-- Settles O22: the control word of R102 enables nothing. -/
theorem finStallCycle : Obligations.FinStallCycle := by
  intro s sw rv
  simp [exec, execFinStall, State.runCycle, State.endCycle]

/-- Settles O23: the control word of R103 loads the pins and offers the register that R76 selects. -/
theorem finDrainCycle : Obligations.FinDrainCycle := by
  intro s sw
  simp [exec, execFinDrain, State.runCycle, State.endCycle]

/-- Settles O24: as FIN_DRAIN, with the pins transferred as a request. -/
theorem finChainCycle : Obligations.FinChainCycle := by
  intro s sw
  simp [exec, execFinChain, State.runCycle, State.endCycle, requestOf]

/-- Settles O25: the control word of R93 enables nothing. -/
theorem doneStallCycle : Obligations.DoneStallCycle := by
  intro s fin sw rv
  simp [exec, execDoneStall, State.runCycle, State.endCycle]

/-- Settles O26: the control word of R93 enables nothing and offers the register that R76 selects. -/
theorem doneDrainCycle : Obligations.DoneDrainCycle := by
  intro s fin sw rv
  simp [exec, execDoneDrain, State.runCycle, State.endCycle]

/-! ## The outputs of each FSM state (R91, R92, R93) -/

theorem outSelOf_compare (r : Regs) : outSelOf (compare r) = if r.b = 0 then .a else .b := by
  simp only [outSelOf, compare_isBZero]

theorem subSelOf_compare (r : Regs) :
    subSelOf (compare r) = if r.a.toNat < r.b.toNat then .bMinusA else .aMinusB := by
  simp only [subSelOf, compare_swap_iff_toNat]

/-- Settles O12: IDLE is ready, so it loads the pins, and a valid request is a transfer. -/
theorem idleOutputsAndTransition : Obligations.IdleOutputsAndTransition := by
  intro s hf
  have hrdy : s.signals.reqRdy = true := settle_reqRdy_of_idle hf
  have hxfer : s.signals.reqXfer = s.inputs.reqVal := by
    rw [State.signals, settle_reqXfer, settle_reqRdy_of_idle hf, Bool.and_true]
  refine ⟨hrdy, settle_respVal_of_idle hf, settle_control_of_idle hf, fun hr => ⟨_, step_eq_cycle hr, ?_⟩⟩
  rw [State.endCycle_regs, tick_of_reqRdy hrdy, hxfer]
  exact ⟨rfl, rfl, rfl, rfl⟩

/-- An unfinished CALC cycle asserts no handshake output. -/
theorem State.signals_handshake_of_unfinished {s : State} (hf : s.regs.fsm = .calc) (hfin : (compare s.regs).finished = false) :
    s.signals.reqRdy = false ∧ s.signals.respVal = false := by
  rw [State.signals, settle_reqRdy_of_calc hf, settle_respVal_of_calc hf, hfin]
  exact ⟨rfl, rfl⟩

/-- A finished CALC cycle offers its response, and is ready for a request when the consumer is ready. -/
theorem State.signals_handshake_of_finished {s : State} (hf : s.regs.fsm = .calc) (hfin : (compare s.regs).finished = true) :
    s.signals.reqRdy = s.inputs.respRdy ∧ s.signals.respVal = true := by
  rw [State.signals, settle_reqRdy_of_calc hf, settle_respVal_of_calc hf, hfin]
  exact ⟨rfl, rfl⟩

/-- Settles O13: the flags of each case fix the handshake outputs and the control word of R92. -/
theorem calcOutputs : Obligations.CalcOutputs := by
  refine fun s hf => ⟨?subA, ?subB, ?finLoad, ?finHold⟩
  case subA =>
    rintro ⟨hb, hba⟩
    obtain ⟨hfin, hsw⟩ := compare_of_le hb hba
    obtain ⟨hrdy, hval⟩ := State.signals_handshake_of_unfinished hf hfin
    have hb0 : s.regs.b ≠ 0 := by rw [Ne, word_eq_zero]; omega
    refine ⟨hrdy, hval, ?_⟩
    rw [State.signals, settle_control_of_unfinished hf hfin, hsw, if_neg hb0, if_neg (not_lt.2 hba)]
    rfl
  case subB =>
    rintro ⟨ha, hab⟩
    obtain ⟨hfin, hsw⟩ := compare_of_lt ha hab
    obtain ⟨hrdy, hval⟩ := State.signals_handshake_of_unfinished hf hfin
    have hb0 : s.regs.b ≠ 0 := by rw [Ne, word_eq_zero]; omega
    refine ⟨hrdy, hval, ?_⟩
    rw [State.signals, settle_control_of_unfinished hf hfin, hsw, if_neg hb0, if_pos hab]
    rfl
  case finLoad | finHold =>
    rintro ⟨hz, hd⟩
    have hfin : (compare s.regs).finished = true := (compare_finished s.regs).2 hz
    obtain ⟨hrdy, hval⟩ := State.signals_handshake_of_finished hf hfin
    refine ⟨hrdy.trans hd, hval, ?_⟩
    rw [State.signals, settle_control_of_finished hf hfin, hd, ← outSelOf_compare, ← subSelOf_compare]
    rfl

/-- Settles O14: the equations of R93; a cycle in DONE keeps A and B. -/
theorem doneOutputs : Obligations.DoneOutputs := by
  intro s hf
  refine ⟨settle_reqRdy_of_done hf, settle_respVal_of_done hf, ?_, fun hr => ⟨_, step_eq_cycle hr, ?_⟩⟩
  · rw [State.signals, settle_control_of_done hf, ← outSelOf_compare]
    rfl
  · rw [State.endCycle_regs, tick_of_done hf]
    exact ⟨rfl, rfl⟩

/-! ## The next state (R95, R96, R97) -/

/-- Settles O15: the next state is the one that the issue of the cycle names. -/
theorem transitionTable : Obligations.TransitionTable := by
  refine fun s hr => ⟨_, step_eq_runCycle_issue hr, ?_⟩
  rw [State.runCycle_regs, commitRegs_fsm]
  refine ⟨fun hf => by rw [State.issue_of_idle hf], fun hf => ?_, fun hf => by rw [State.issue_of_done hf]⟩
  by_cases hz : s.regs.isFinished
  · rw [State.issue_of_finished hf ((compare_finished s.regs).2 hz), if_pos hz]
  · rw [State.issue_of_unfinished hf (by rwa [← Bool.not_eq_true, compare_finished]), if_neg hz]

/-! ## DONE waits for the consumer (R97) -/

/-- A DONE cycle whose response is taken is DONE_DRAIN. -/
theorem step_of_done_of_taken {s : State} (hr : s.inputs.reset = false) (hf : s.regs.fsm = .done)
    (hd : s.inputs.respRdy = true) :
    step s = .next (s.endCycle { s.regs with fsm := .idle } ⟨false, true, none, some ⟨foldedResult s.regs⟩⟩) := by
  rw [step_eq_exec hr (decode_key_of_done hf), hd]
  exact doneDrainCycle s ..

/-- A DONE cycle whose response is not taken is DONE_STALL: it changes no register. -/
theorem step_of_done_of_stalled {s : State} (hr : s.inputs.reset = false) (hf : s.regs.fsm = .done)
    (hd : s.inputs.respRdy = false) :
    step s = .next (s.endCycle s.regs ⟨false, true, none, none⟩) := by
  have hregs : s.regs = { s.regs with fsm := .done } := by rw [← hf]
  rw [step_eq_exec hr (decode_key_of_done hf), hd, hregs]
  exact doneStallCycle s ..

/-- While the consumer is not ready DONE repeats itself, by induction on the number of stalled cycles. -/
theorem runsTo_of_done_of_stalled (k : Nat) {s : State} (hf : s.regs.fsm = .done) (hnr : noReset k s)
    (hwait : ∀ j < k, (s.inputAt j).respRdy = false) :
    ∃ t, runsTo k s t ∧ t.regs = s.regs ∧ t.log = List.replicate k ⟨false, true, none, none⟩ ++ s.log := by
  induction k generalizing s with
  | zero => exact ⟨s, (runsTo_zero s s).2 rfl, rfl, rfl⟩
  | succ k ih =>
    have hstep := step_of_done_of_stalled (hnr 0 (by omega)) hf (hwait 0 (by omega))
    obtain ⟨t, hrun, hregs, hlog⟩ :=
      ih (s := s.endCycle s.regs _) hf (noReset_of_step hstep hnr) fun j hj => inputAt_of_step hstep j ▸ hwait (j + 1) (by omega)
    refine ⟨t, (runsTo_succ_of_step hstep k t).2 hrun, hregs, ?_⟩
    rw [hlog, State.endCycle_log, List.replicate_succ', List.append_assoc, List.singleton_append]

/-- Settles O54: DONE_DRAIN for the way out, and DONE_STALL for as long as the consumer waits. -/
theorem doneStallsWithoutLoss : Obligations.DoneStallsWithoutLoss :=
  ⟨fun _ hf hr hd => ⟨_, _, step_of_done_of_taken hr hf hd, rfl, rfl, rfl, rfl, settle_reqRdy_of_idle rfl⟩,
    fun k _ hf hnr hwait => runsTo_of_done_of_stalled k hf hnr hwait⟩

end Sys2Proof.Machine

/-! PROOFS. The unit cycle family (spec/42_unit_tick.md): the folded cycle is the full one; a step serves the open request, which the
port log shows; the step count n(a, b); and what a run does from an accepted request to its response. -/

namespace Sys2Proof.Machine

/-! ## The cycle, folded (R131, R132) -/

section Folding

variable {dc : Config.DontCare} {r : Regs} {i : Inputs}

theorem fsm_foldedStep (r : Regs) : (foldedStep r).regs.fsm = .calc := by
  rw [foldedStep]
  split <;> rfl

theorem foldedStep_of_lt (h : r.a.toNat < r.b.toNat) : (foldedStep r).regs = ⟨.calc, r.a, r.b - r.a⟩ :=
  if_pos ((word_lt r.a r.b).2 h)

theorem foldedStep_of_le (h : r.b.toNat ≤ r.a.toNat) : (foldedStep r).regs = ⟨.calc, r.a - r.b, r.b⟩ :=
  if_neg fun hlt => absurd ((word_lt r.a r.b).1 hlt) (not_lt.2 h)

/-- An unfinished CALC cycle stays in CALC and loads the one difference that its flags select (R92, R96). -/
theorem tick_of_unfinished (hf : r.fsm = .calc) (hfin : ¬ r.isFinished) : tick dc r i = (foldedStep r).regs := by
  rw [← compare_finished, Bool.not_eq_true] at hfin
  have hctl := settle_control_of_unfinished (dc := dc) (i := i) hf hfin
  have hnext : nextFsm r i (settle dc r i) = .calc := by simp [nextFsm, hf, settle, hfin, nextFromCalc]
  have htick : tick dc r i = commitRegs dc (settle dc r i).control .calc r i := by rw [← hnext]; rfl
  rw [htick, hctl, foldedStep]
  simp only [compare_swap]
  split <;> rfl

theorem tick_eq_folded (dc : Config.DontCare) (r : Regs) (i : Inputs) : tick dc r i = (folded r i).regs := by
  cases hf : r.fsm
  case idle => rw [tick_of_reqRdy (settle_reqRdy_of_idle hf), folded, hf, foldedIdle]
  case done => rw [tick_of_done hf, folded, hf, foldedDone]
  by_cases hfin : r.isFinished
  case neg => rw [tick_of_unfinished hf hfin, folded, hf]; exact congrArg Folded.regs (if_neg hfin).symm
  have hfold : folded r i = foldedFinished r i := by rw [folded, hf]; exact if_pos hfin
  have hcmp := (compare_finished r).2 hfin
  rw [hfold, foldedFinished]
  cases hd : i.respRdy
  case false => exact tick_of_stalled (settle_respVal_iff.2 (.inl ⟨hf, hcmp⟩)) hd
  case true => exact tick_of_reqRdy (settle_reqRdy_iff.2 (.inr ⟨hf, hcmp, hd⟩))

theorem settle_handshake_eq_folded (dc : Config.DontCare) (r : Regs) (i : Inputs) :
    (settle dc r i).reqRdy = (folded r i).reqRdy ∧ (settle dc r i).respVal = (folded r i).respVal := by
  cases hf : r.fsm
  case idle => rw [settle_reqRdy_of_idle hf, settle_respVal_of_idle hf, folded, hf]; exact ⟨rfl, rfl⟩
  case done => rw [settle_reqRdy_of_done hf, settle_respVal_of_done hf, folded, hf]; exact ⟨rfl, rfl⟩
  rw [settle_reqRdy_of_calc hf, settle_respVal_of_calc hf, compare_finished_eq, folded, hf]
  by_cases hfin : r.a = 0 ∨ r.b = 0
  · simp only [hfin, if_true, decide_true, foldedFinished, Bool.true_and, and_self]
  · simp only [hfin, if_false, decide_false, foldedStep, Bool.false_and, and_self]

theorem folded_respValue_of_respVal (h : (folded r i).respVal = true) : (folded r i).respValue = some (foldedResult r) := by
  rw [folded] at h ⊢
  split at h
  · cases h
  · split at h
    · rw [if_pos ‹_›]; rfl
    · cases h
  · rfl

end Folding

/-- Settles O29: the two forms agree on the registers and the handshake outputs, and both offer the register that R76 selects. -/
theorem foldedFormAgrees : Obligations.FoldedFormAgrees := by
  intro dc r i
  obtain ⟨hrdy, hval⟩ := settle_handshake_eq_folded dc r i
  refine ⟨(tick_eq_folded dc r i).symm, hrdy.symm, hval.symm, fun hv => ?_⟩
  rw [settle_respValue_of_respVal hv, folded_respValue_of_respVal (hval ▸ hv)]

theorem tick_eq_of_dontCare (dc dc' : Config.DontCare) (r : Regs) (i : Inputs) : tick dc r i = tick dc' r i := by
  rw [tick_eq_folded, tick_eq_folded]

/-- No don't-care select reaches the ports: a response transfers only when `out_sel` comes from the flags. -/
theorem portsOf_eq_of_dontCare (dc dc' : Config.DontCare) (r : Regs) (i : Inputs) : portsOf dc r i = portsOf dc' r i := by
  have hrdy : (settle dc r i).reqRdy = (settle dc' r i).reqRdy := rfl
  have hval : (settle dc r i).respVal = (settle dc' r i).respVal := rfl
  refine (PortCycle.mk.injEq ..).mpr ⟨hrdy, hval, rfl, ?_⟩
  rw [settle_respXfer, settle_respXfer, hval]
  cases hv : (settle dc' r i).respVal
  case false => rfl
  case true => rw [settle_respValue_of_respVal (hval.trans hv), settle_respValue_of_respVal hv]

/-- Settles O28: a step is the cycle under the spec's own resolution, and no resolution gives another. -/
theorem stepIsTheCycleFunction : Obligations.StepIsTheCycleFunction := by
  intro dc s hr
  rw [step_eq_cycle hr, tick_eq_of_dontCare _ dc, portsOf_eq_of_dontCare _ dc]
  rfl

/-! ## Subtractive Euclid (R133) -/

section Euclid

variable {r : Regs}

/-- One subtraction, on numbers: the smaller operand is taken from the other. -/
theorem foldedStep_toNat (r : Regs) :
    (r.a.toNat < r.b.toNat → (foldedStep r).regs.a = r.a ∧ (foldedStep r).regs.b.toNat = r.b.toNat - r.a.toNat) ∧
    (r.b.toNat ≤ r.a.toNat → (foldedStep r).regs.b = r.b ∧ (foldedStep r).regs.a.toNat = r.a.toNat - r.b.toNat) := by
  refine ⟨fun h => ?_, fun h => ?_⟩
  · rw [foldedStep_of_lt h]
    exact ⟨rfl, BitVec.toNat_sub_of_le (BitVec.le_def.2 h.le)⟩
  · rw [foldedStep_of_le h]
    exact ⟨rfl, BitVec.toNat_sub_of_le (BitVec.le_def.2 h)⟩

theorem gcd_foldedStep (r : Regs) : (foldedStep r).regs.gcd = r.gcd := by
  obtain ⟨hlt, hle⟩ := foldedStep_toNat r
  rcases lt_or_ge r.a.toNat r.b.toNat with h | h
  · obtain ⟨ha, hb⟩ := hlt h
    rw [Regs.gcd, ha, hb, Nat.gcd_sub_self_right h.le, Regs.gcd]
  · obtain ⟨hb, ha⟩ := hle h
    rw [Regs.gcd, ha, hb, Nat.gcd_sub_self_left h, Regs.gcd]

/-- With one operand zero the larger is the gcd, for (0, 0) too (R77). -/
theorem max_eq_gcd_of_finished (h : r.isFinished) : max r.a.toNat r.b.toNat = r.gcd := by
  rw [Regs.gcd]
  rcases h with h | h
  · rw [(word_eq_zero r.a).1 h, Nat.zero_max, Nat.gcd_zero_left]
  · rw [(word_eq_zero r.b).1 h, Nat.max_zero, Nat.gcd_zero_right]

theorem foldedResult_eq_gcd_of_finished (h : r.isFinished) : (foldedResult r).toNat = r.gcd :=
  (foldedResult_toNat_of_finished h).trans (max_eq_gcd_of_finished h)

/-- A cycle that does not subtract holds both registers or loads both pins. -/
theorem tick_holds_or_loads (dc : Config.DontCare) (i : Inputs) (h : ¬ (r.fsm = .calc ∧ ¬ r.isFinished)) :
    ((tick dc r i).a = r.a ∧ (tick dc r i).b = r.b) ∨ ((tick dc r i).a = i.reqA ∧ (tick dc r i).b = i.reqB) := by
  cases hrdy : (settle dc r i).reqRdy
  case true => exact .inr (by rw [tick_of_reqRdy hrdy]; exact ⟨rfl, rfl⟩)
  refine .inl ?_
  cases hf : r.fsm
  case idle => rw [settle_reqRdy_of_idle hf] at hrdy; cases hrdy
  case done => rw [tick_of_done hf]; exact ⟨rfl, rfl⟩
  have hfin : (compare r).finished = true := (compare_finished r).2 (not_not.1 fun hn => h ⟨hf, hn⟩)
  have hd : i.respRdy = false := by simpa [settle_reqRdy_of_calc hf, hfin] using hrdy
  rw [tick_of_stalled (settle_respVal_iff.2 (.inl ⟨hf, hfin⟩)) hd]
  exact ⟨rfl, rfl⟩

end Euclid

/-- Settles O33: the unfinished CALC cycle is one subtraction, and no other cycle subtracts. -/
theorem oneSubtractionStepPerCycle : Obligations.OneSubtractionStepPerCycle := by
  refine fun s hr => ⟨_, step_eq_cycle hr, fun ⟨hf, hfin⟩ => ?_, tick_holds_or_loads _ _,
    fun ⟨_, hfin⟩ => max_eq_gcd_of_finished hfin⟩
  rw [State.endCycle_regs, tick_of_unfinished hf hfin]
  exact ⟨fsm_foldedStep s.regs, foldedStep_toNat s.regs⟩

/-! ## The invariant (R134, R137, R138) -/

/-- The registers serve the open request: with none the unit is idle; with one it computes its gcd, and in DONE has it. -/
def Regs.Serves (r : Regs) : Option Request → Prop
  | none => r.fsm = .idle
  | some q => r.fsm ≠ .idle ∧ r.gcd = gcdOf q ∧ (r.fsm = .done → r.isFinished)

theorem State.inv_iff (s : State) : s.Inv ↔ ∃ o, openRequest s.log = some o ∧ s.regs.Serves o := by
  cases hf : s.regs.fsm
  case done => simp [State.Inv, Regs.Serves, hf, Option.exists, ← and_assoc]
  all_goals simp [State.Inv, Regs.Serves, hf, Option.exists]

section Serving

variable {dc : Config.DontCare} {r : Regs} {i : Inputs}

/-- Outside IDLE a cycle without a response transfer accepts no request. -/
theorem portsOf_of_no_respXfer (hf : r.fsm ≠ .idle) (hx : (settle dc r i).respXfer = false) :
    portsOf dc r i = ⟨false, (settle dc r i).respVal, none, none⟩ := by
  have hrdy : (settle dc r i).reqRdy = false := by
    rw [← Bool.not_eq_true, settle_reqRdy_iff]
    rintro (hidle | ⟨hcalc, hfin, hd⟩)
    · exact hf hidle
    · simp [settle_respXfer, settle_respVal_of_calc hcalc, hfin, hd] at hx
  refine (PortCycle.mk.injEq ..).mpr ⟨hrdy, rfl, ?_, ?_⟩
  · simp [settle_reqXfer, hrdy]
  · simp [hx]

/-- Outside IDLE a cycle without a response transfer is a subtraction or a stall. -/
theorem tick_of_no_respXfer (hf : r.fsm ≠ .idle) (hx : (settle dc r i).respXfer = false) :
    (r.fsm = .calc ∧ ¬ r.isFinished ∧ tick dc r i = (foldedStep r).regs) ∨
      ((r.fsm = .done ∨ r.isFinished) ∧ tick dc r i = { r with fsm := .done }) := by
  cases hv : (settle dc r i).respVal
  case true =>
    have hd : i.respRdy = false := by simpa [settle_respXfer, hv] using hx
    refine .inr ⟨?_, tick_of_stalled hv hd⟩
    exact (settle_respVal_iff.1 hv).symm.imp_right fun ⟨_, hfin⟩ => (compare_finished r).1 hfin
  rw [← Bool.not_eq_true, settle_respVal_iff, compare_finished] at hv
  cases h : r.fsm
  case idle => exact absurd h hf
  case done => exact absurd (.inr h) hv
  have hfin : ¬ r.isFinished := fun hfin => hv (.inl ⟨h, hfin⟩)
  exact .inl ⟨rfl, hfin, tick_of_unfinished h hfin⟩

/-- The open request is served on through a cycle without a response transfer (R134). -/
theorem Regs.Serves.of_no_respXfer {q : Request} (h : r.Serves (some q)) (hx : (settle dc r i).respXfer = false) :
    (tick dc r i).Serves (some q) := by
  obtain ⟨hf, hgcd, hdone⟩ := h
  obtain ⟨_, _, ht⟩ | ⟨hfin, ht⟩ := tick_of_no_respXfer hf hx
  · rw [ht]
    exact ⟨by simp [fsm_foldedStep], (gcd_foldedStep r).trans hgcd, by simp [fsm_foldedStep]⟩
  · rw [ht]
    exact ⟨by simp, hgcd, fun _ => hfin.elim hdone id⟩

/-- When nothing is left open, the request that the cycle accepts, or its absence, is what the next cycle serves (R37). -/
theorem tick_serves_request (h : r.fsm = .idle ∨ (settle dc r i).respXfer = true) :
    (tick dc r i).Serves (portsOf dc r i).request := by
  cases hreq : (settle dc r i).reqXfer
  case true =>
    have hp : (portsOf dc r i).request = some (requestOf i) := if_pos hreq
    rw [hp, tick_of_reqXfer hreq]
    exact ⟨by simp, rfl, by simp⟩
  have hp : (portsOf dc r i).request = none := if_neg (by simp [hreq])
  rw [hp]
  obtain hf | hx := h
  · have hrdy := settle_reqRdy_of_idle (dc := dc) (i := i) hf
    have hv : i.reqVal = false := by simpa [settle_reqXfer, hrdy] using hreq
    simp [Regs.Serves, tick_of_reqRdy hrdy, hv]
  · exact (tick_of_respXfer hx).resolve_right (by simp [hreq])

/-- An offered response is the gcd of the request that is served (R136). -/
theorem Regs.Serves.respValue {o : Option Request} (h : r.Serves o) (hv : (settle dc r i).respVal = true) :
    ∃ q, o = some q ∧ (settle dc r i).respValue.toNat = gcdOf q := by
  have hoffer := settle_respVal_iff.1 hv
  rw [settle_respValue_of_respVal hv]
  cases o with
  | none => simp [show r.fsm = .idle from h] at hoffer
  | some q =>
    obtain ⟨_, hgcd, hdone⟩ := h
    have hfin : r.isFinished := hoffer.elim (fun ⟨_, hfin⟩ => (compare_finished r).1 hfin) hdone
    exact ⟨q, rfl, (foldedResult_eq_gcd_of_finished hfin).trans hgcd⟩

/-- A request accepted when none is open, if one is, becomes the open one. -/
theorem portStep_none_of_no_response {c : PortCycle} (h : c.response = none) : portStep none c = some c.request := by
  obtain ⟨rdy, val, _ | q, resp⟩ := c <;> cases h <;> rfl

/-- One cycle of the unit keeps the port discipline, and serves the request that it leaves open. -/
theorem Regs.Serves.cycle {o : Option Request} (h : r.Serves o) (dc : Config.DontCare) (i : Inputs) :
    ∃ o', portStep o (portsOf dc r i) = some o' ∧ (tick dc r i).Serves o' := by
  cases hx : (settle dc r i).respXfer
  case true =>
    have hxfer := hx
    rw [settle_respXfer, Bool.and_eq_true] at hxfer
    obtain ⟨q, rfl, hgcd⟩ := h.respValue hxfer.1
    have hresp : (portsOf dc r i).response = some ⟨(settle dc r i).respValue⟩ := if_pos hx
    have hp := portStep_deliver (v := ⟨(settle dc r i).respValue⟩) hgcd (portsOf dc r i).reqRdy (portsOf dc r i).respVal
      (portsOf dc r i).request
    rw [← hresp] at hp
    exact ⟨_, hp, tick_serves_request (.inr hx)⟩
  cases o with
  | none => exact ⟨_, portStep_none_of_no_response (if_neg (by simp [hx])), tick_serves_request (.inl h)⟩
  | some q => exact ⟨_, by rw [portsOf_of_no_respXfer h.1 hx]; exact portStep_quiet .., h.of_no_respXfer hx⟩

end Serving

/-- Settles O44: a reset leaves nothing open and the unit idle; any other cycle serves what it leaves open. -/
theorem stepKeepsTheInvariant : Obligations.StepKeepsTheInvariant := by
  intro s t hs hstep
  cases hr : s.inputs.reset with
  | true => rw [step_of_reset hr] at hstep; cases hstep; rfl
  | false =>
    obtain ⟨o, hopen, hserves⟩ := (State.inv_iff s).1 hs
    obtain ⟨o', hport, hserves'⟩ := hserves.cycle Config.dontCare s.inputs
    rw [step_eq_cycle hr] at hstep
    cases hstep
    exact (State.inv_iff _).2 ⟨o', (openRequest_cons _ hopen).trans hport, hserves'⟩

/-- The invariant holds of every state of a run that starts in it. -/
theorem inv_of_runsTo {k : Nat} {s t : State} (hs : s.Inv) (hrun : runsTo k s t) : t.Inv := by
  induction k generalizing s with
  | zero => exact (runsTo_zero s t).1 hrun ▸ hs
  | succ k ih =>
    obtain ⟨u, hstep, hrun⟩ := (runsTo_succ k s t).1 hrun
    exact ih (stepKeepsTheInvariant s u hs hstep) hrun

theorem State.inv_of_isStart {s : State} (h : s.isStart) : s.Inv :=
  (State.inv_iff s).2 ⟨none, by rw [h.2]; rfl, h.1⟩

/-- Settles O46: a clause of the invariant, which every run keeps. -/
theorem doneImpliesFinished : Obligations.DoneImpliesFinished := by
  intro k s t hs hrun hf
  have ht := inv_of_runsTo (State.inv_of_isStart hs) hrun
  rw [State.Inv, hf] at ht
  exact ht.2

theorem gcd_le_max (a b : Nat) : Nat.gcd a b ≤ max a b := by
  rcases Nat.eq_zero_or_pos a with rfl | ha
  · simp
  · exact (Nat.gcd_le_left b ha).trans (le_max_left a b)

/-- Settles O48: under the invariant the registers serve the open request. -/
theorem offeredResponseIsTheGcd : Obligations.OfferedResponseIsTheGcd := by
  intro s hs hv
  obtain ⟨o, hopen, hserves⟩ := (State.inv_iff s).1 hs
  obtain ⟨q, rfl, hgcd⟩ := hserves.respValue hv
  exact ⟨q, hopen, hgcd, hgcd.trans_le (gcd_le_max _ _)⟩

/-! ## From a request transfer on (R134) -/

/-- A cycle that accepts a request logs it, and the next cycle is in CALC on it. -/
theorem step_of_accept {s : State} (hr : s.inputs.reset = false) (hv : s.inputs.reqVal = true) (hrdy : s.signals.reqRdy = true) :
    ∃ p, p.request = some (requestOf s.inputs) ∧ step s = .next (s.endCycle ⟨.calc, s.inputs.reqA, s.inputs.reqB⟩ p) := by
  have hx : (settle Config.dontCare s.regs s.inputs).reqXfer = true := by
    rw [settle_reqXfer, hv]
    exact hrdy
  exact ⟨_, if_pos hx, by rw [step_eq_cycle hr, tick_of_reqXfer hx]⟩

/-- Without a reset or a response transfer a request is served through any number of cycles. -/
theorem serves_of_runsTo {j : Nat} {s t : State} {q : Request} (h : s.regs.Serves (some q)) (hnr : noReset j s)
    (hx : ∀ k < j, ∀ u, runsTo k s u → u.signals.respXfer = false) (hrun : runsTo j s t) : t.regs.Serves (some q) := by
  induction j generalizing t with
  | zero => exact (runsTo_zero s t).1 hrun ▸ h
  | succ j ih =>
    obtain ⟨u, hu, hstep⟩ := (runsTo_succ_last j s t).1 hrun
    have hserves := ih (fun k hk => hnr k (by omega)) (fun k hk => hx k (by omega)) hu
    have hr : u.inputs.reset = false := (congrArg Inputs.reset (inputAt_of_runsTo hu 0)).trans (hnr j (by omega))
    rw [step_eq_cycle hr] at hstep
    cases hstep
    exact hserves.of_no_respXfer (hx j (by omega) u hu)

/-- Settles O47: the accepted pair is served from the next cycle on. -/
theorem gcdIsKeptUntilTheResponse : Obligations.GcdIsKeptUntilTheResponse := by
  intro j s hv hrdy hnr hx
  obtain ⟨p, _, hstep⟩ := step_of_accept (hnr 0 (by omega)) hv hrdy
  obtain ⟨t, hrun⟩ := exists_runsTo j (s.endCycle ⟨.calc, s.inputs.reqA, s.inputs.reqB⟩ p)
  have hserves : (⟨.calc, s.inputs.reqA, s.inputs.reqB⟩ : Regs).Serves (some (requestOf s.inputs)) :=
    ⟨by simp, rfl, by simp⟩
  obtain ⟨hf, hgcd, _⟩ := serves_of_runsTo hserves (noReset_of_step hstep hnr)
    (fun k hk u hu => hx k hk u ((runsTo_succ_of_step hstep k u).2 hu)) hrun
  exact ⟨t, (runsTo_succ_of_step hstep j t).2 hrun, hf, hgcd⟩

/-! ## Responses answer requests in order (R137) -/

/-- A response answers a request with its gcd. -/
def Answers (v : Response) (q : Request) : Prop := v.value.toNat = gcdOf q

/-- A cycle that keeps the discipline transfers nothing, or accepts a request, or answers the open request and may accept another. -/
theorem portStep_eq_some {o o' : Option Request} {c : PortCycle} (h : portStep o c = some o') :
    (c.response = none ∧ c.request = none ∧ o' = o) ∨ (c.response = none ∧ o = none ∧ o' = c.request) ∨
      ∃ v q, c.response = some v ∧ o = some q ∧ Answers v q ∧ o' = c.request := by
  obtain ⟨rdy, val, req, resp⟩ := c
  cases resp with
  | none =>
    cases req with
    | none => exact .inl ⟨rfl, rfl, (Option.some.inj h).symm⟩
    | some q =>
      cases o with
      | none => exact .inr (.inl ⟨rfl, rfl, (Option.some.inj h).symm⟩)
      | some q' => cases h
  | some v =>
    cases o with
    | none => simp [portStep] at h
    | some q =>
      by_cases hgcd : v.value.toNat = gcdOf q
      · rw [portStep_deliver hgcd] at h
        exact .inr (.inr ⟨v, q, rfl, rfl, hgcd, (Option.some.inj h).symm⟩)
      · simp [portStep, hgcd] at h

/-- In a log without a breach the requests, newest first, are the open one and then those that the responses answer one by one. -/
theorem openRequest_answered {log : List PortCycle} {o : Option Request} (h : openRequest log = some o) :
    ∃ answered, log.filterMap PortCycle.request = o.toList ++ answered ∧
      List.Forall₂ Answers (log.filterMap PortCycle.response) answered := by
  induction log generalizing o with
  | nil => cases h; exact ⟨[], rfl, .nil⟩
  | cons c older ih =>
    cases hold : openRequest older with
    | none => simp [openRequest, hold] at h
    | some o₀ =>
      rw [openRequest_cons c hold] at h
      obtain ⟨answered, hreq, hans⟩ := ih hold
      obtain ⟨hv, hq, rfl⟩ | ⟨hv, rfl, rfl⟩ | ⟨v, q, hv, rfl, hgcd, rfl⟩ := portStep_eq_some h
      · exact ⟨answered, by simp [hq, hreq], by simpa [hv] using hans⟩
      · refine ⟨answered, ?_, by simpa [hv] using hans⟩
        cases hq : c.request <;> simp [hq, hreq]
      · refine ⟨q :: answered, ?_, by simpa [hv] using ⟨hgcd, hans⟩⟩
        cases hq : c.request <;> simp [hq, hreq]

/-- The requests of a run under the invariant, oldest first: those answered, in the order of the responses, and then the open one. -/
theorem State.Inv.answered {s : State} (h : s.Inv) :
    ∃ (o : Option Request) (answered : List Request), openRequest s.log = some o ∧ s.requests = answered ++ o.toList ∧
      List.Forall₂ Answers s.responses answered := by
  obtain ⟨o, hopen, _⟩ := (State.inv_iff s).1 h
  obtain ⟨answered, hreq, hans⟩ := openRequest_answered hopen
  refine ⟨o, answered.reverse, hopen, ?_, List.forall₂_reverse_iff.2 hans⟩
  rw [State.requests, hreq, List.reverse_append]
  cases o <;> rfl

/-- A response of the next cycle answers the request that is open before it. -/
theorem length_responses_of_step {s t : State} (hs : s.Inv) (hstep : step s = .next t) :
    t.responses.length ≤ s.requests.length := by
  cases hr : s.inputs.reset with
  | true => rw [step_of_reset hr] at hstep; cases hstep; exact Nat.zero_le _
  | false =>
    have ht := stepKeepsTheInvariant s t hs hstep
    obtain ⟨o, answered, hopen, hreq, hans⟩ := hs.answered
    obtain ⟨o', hopen', _⟩ := (State.inv_iff t).1 ht
    rw [step_eq_cycle hr] at hstep
    cases hstep
    rw [State.endCycle_log, openRequest_cons _ hopen] at hopen'
    have hlen := hans.length_eq
    rw [State.responses, List.length_reverse] at hlen ⊢
    obtain ⟨hv, _⟩ | ⟨hv, _⟩ | ⟨v, q, hv, rfl, _⟩ := portStep_eq_some hopen' <;> simp [hv, hreq, hlen]

/-- Settles O49: the replay of the log pairs the responses with the requests, and the open request is the one that may be ahead. -/
theorem responsesAnswerRequestsInOrder : Obligations.ResponsesAnswerRequestsInOrder := by
  intro k s t hs hrun
  have ht := inv_of_runsTo (State.inv_of_isStart hs) hrun
  obtain ⟨o, answered, _, hreq, hans⟩ := ht.answered
  have hlen := hans.length_eq
  have ho : o.toList.length ≤ 1 := by cases o <;> simp
  rw [hreq, List.length_append, ← hlen]
  refine ⟨fun n v hv => ?_, by omega, by omega, fun t' hstep => ?_⟩
  · obtain ⟨hn, rfl⟩ := List.getElem?_eq_some_iff.1 hv
    have hn' : n < answered.length := hlen ▸ hn
    exact ⟨answered[n], by rw [List.getElem?_append_left hn', List.getElem?_eq_getElem hn'], hans.get hn hn'⟩
  · have hle := length_responses_of_step ht hstep
    rwa [hreq, List.length_append, ← hlen] at hle

/-! ## The step count (R135) -/

/-- Any fuel from a + b on gives the same count, since each subtraction uses up one of each. -/
theorem subStepsFuel_eq_subSteps {fuel a b : Nat} (h : a + b ≤ fuel) : subStepsFuel fuel a b = subSteps a b := by
  suffices ∀ f g a b, a + b ≤ f → a + b ≤ g → subStepsFuel f a b = subStepsFuel g a b from this _ _ _ _ h le_rfl
  intro f
  induction f with
  | zero =>
    intro g a b hf _
    obtain ⟨rfl, rfl⟩ : a = 0 ∧ b = 0 := by omega
    cases g <;> simp [subStepsFuel]
  | succ f ih =>
    intro g a b hf hg
    by_cases hz : a = 0 ∨ b = 0
    · cases g <;> simp [subStepsFuel, hz]
    cases g with
    | zero => omega
    | succ g =>
      simp only [subStepsFuel, hz, if_false]
      rw [ih g (a - b) b (by omega) (by omega), ih g a (b - a) (by omega) (by omega)]

theorem subSteps_of_zero {a b : Nat} (h : a = 0 ∨ b = 0) : subSteps a b = 0 := by
  rw [subSteps]
  cases a + b <;> simp [subStepsFuel, h]

/-- The count on two nonzero operands, its fuel hidden. -/
theorem subSteps_of_ne_zero {a b : Nat} (h : ¬ (a = 0 ∨ b = 0)) :
    subSteps a b = if b ≤ a then 1 + subSteps (a - b) b else 1 + subSteps a (b - a) := by
  rw [← subStepsFuel_eq_subSteps (Nat.le_succ (a + b)), subStepsFuel, if_neg h,
    subStepsFuel_eq_subSteps (by omega), subStepsFuel_eq_subSteps (by omega)]

theorem subSteps_of_le {a b : Nat} (hb : 1 ≤ b) (h : b ≤ a) : subSteps a b = 1 + subSteps (a - b) b := by
  rw [subSteps_of_ne_zero (by omega), if_pos h]

theorem subSteps_of_lt {a b : Nat} (ha : 1 ≤ a) (h : a < b) : subSteps a b = 1 + subSteps a (b - a) := by
  rw [subSteps_of_ne_zero (by omega), if_neg (by omega)]

/-- Induction along the subtractions of Euclid's algorithm. -/
theorem subtractive_induction {P : Nat → Nat → Prop} (zero : ∀ a b, a = 0 ∨ b = 0 → P a b)
    (subA : ∀ a b, 1 ≤ b → b ≤ a → P (a - b) b → P a b)
    (subB : ∀ a b, 1 ≤ a → a < b → P a (b - a) → P a b) (a b : Nat) : P a b := by
  by_cases hz : a = 0 ∨ b = 0
  · exact zero a b hz
  by_cases h : b ≤ a
  · exact subA a b (by omega) h (subtractive_induction zero subA subB (a - b) b)
  · exact subB a b (by omega) (by omega) (subtractive_induction zero subA subB a (b - a))
termination_by a + b

theorem subSteps_comm (a b : Nat) : subSteps a b = subSteps b a := by
  induction a, b using subtractive_induction with
  | zero a b h => rw [subSteps_of_zero h, subSteps_of_zero h.symm]
  | subA a b hb h ih =>
    obtain rfl | hlt := h.eq_or_lt
    · rfl
    · rw [subSteps_of_le hb h, subSteps_of_lt hb hlt, ih]
  | subB a b ha h ih => rw [subSteps_of_lt ha h, subSteps_of_le ha h.le, ih]

theorem subSteps_le_max (a b : Nat) : subSteps a b ≤ max a b := by
  induction a, b using subtractive_induction with
  | zero a b h => rw [subSteps_of_zero h]; exact Nat.zero_le _
  | subA a b hb h ih =>
    obtain rfl | hlt := h.eq_or_lt
    · rw [subSteps_of_le hb h, Nat.sub_self, subSteps_of_zero (.inl rfl)]; omega
    · rw [subSteps_of_le hb h]; omega
  | subB a b ha h ih => rw [subSteps_of_lt ha h]; omega

/-- A division is as many subtractions as its quotient. -/
theorem subSteps_eq_div_add_mod {b : Nat} (hb : 1 ≤ b) (a : Nat) : subSteps a b = a / b + subSteps (a % b) b := by
  induction a using Nat.strong_induction_on with
  | h a ih =>
    by_cases h : b ≤ a
    · rw [subSteps_of_le hb h, ih (a - b) (by omega), Nat.div_eq_sub_div hb h, Nat.mod_eq_sub_mod h]
      omega
    · rw [Nat.div_eq_of_lt (by omega), Nat.mod_eq_of_lt (by omega), Nat.zero_add]

/-- Any fuel above the second operand gives the sum, since the remainder falls below it. -/
theorem quotientSumFuel_eq_subSteps {fuel a b : Nat} (h : b < fuel) : quotientSumFuel fuel a b = subSteps a b := by
  induction fuel generalizing a b with
  | zero => omega
  | succ fuel ih =>
    rw [quotientSumFuel]
    split
    case isTrue hb => rw [subSteps_of_zero (.inr hb)]
    case isFalse hb =>
      have hmod : a % b < b := Nat.mod_lt a (by omega)
      rw [ih (by omega), subSteps_eq_div_add_mod (by omega) a, subSteps_comm b]

theorem subSteps_one (a : Nat) : subSteps a 1 = a := by
  rw [subSteps_eq_div_add_mod le_rfl, Nat.div_one, Nat.mod_one, subSteps_of_zero (.inl rfl), Nat.add_zero]

theorem subSteps_succ_self {n : Nat} (hn : 1 ≤ n) : subSteps (n + 1) n = n + 1 := by
  rw [subSteps_of_le hn (Nat.le_add_right n 1), Nat.add_sub_cancel_left, subSteps_comm, subSteps_one, Nat.add_comm]

/-- Settles O50: the equations of the count; a quotient is a run of subtractions by one operand. -/
theorem subtractionStepCount : Obligations.SubtractionStepCount :=
  ⟨fun _ _ => subSteps_of_zero, fun _ _ => subSteps_of_le, fun _ _ => subSteps_of_lt,
    fun a b _ _ => (quotientSumFuel_eq_subSteps (Nat.lt_succ_self b)).symm, subSteps_le_max,
    (subSteps_comm 1 65535).trans (subSteps_one 65535), subSteps_one 65535, subSteps_succ_self (n := 65534) (by omega)⟩

/-! ## The computation of a request (R135, R155) -/

/-- The remaining count is one less after each subtraction, by the two equations of R135. -/
theorem subSteps_foldedStep {r : Regs} (hfin : ¬ r.isFinished) :
    subSteps r.a.toNat r.b.toNat = subSteps (foldedStep r).regs.a.toNat (foldedStep r).regs.b.toNat + 1 := by
  rw [Regs.isFinished, word_eq_zero, word_eq_zero] at hfin
  obtain ⟨hlt, hle⟩ := foldedStep_toNat r
  rcases lt_or_ge r.a.toNat r.b.toNat with h | h
  · obtain ⟨ha, hb⟩ := hlt h
    rw [subSteps_of_lt (by omega) h, ha, hb, Nat.add_comm]
  · obtain ⟨hb, ha⟩ := hle h
    rw [subSteps_of_le (by omega) h, ha, hb, Nat.add_comm]

/-- B never becomes zero: it is only subtracted from while it is the larger. -/
theorem foldedStep_b_ne_zero {r : Regs} (hb : r.b ≠ 0) : (foldedStep r).regs.b ≠ 0 := by
  rw [Ne, word_eq_zero] at hb ⊢
  obtain ⟨hlt, hle⟩ := foldedStep_toNat r
  rcases lt_or_ge r.a.toNat r.b.toNat with h | h
  · have := (hlt h).2
    omega
  · rwa [(hle h).1]

/-- An unfinished CALC cycle is one silent subtraction. -/
theorem step_of_unfinished {s : State} (hr : s.inputs.reset = false) (hf : s.regs.fsm = .calc) (hfin : ¬ s.regs.isFinished) :
    step s = .next (s.endCycle (foldedStep s.regs).regs ⟨false, false, none, none⟩) := by
  have hval : s.signals.respVal = false :=
    (State.signals_handshake_of_unfinished hf (by rwa [← Bool.not_eq_true, compare_finished])).2
  have hx : s.signals.respXfer = false := by rw [State.signals, settle_respXfer, ← State.signals, hval, Bool.false_and]
  have hports := portsOf_of_no_respXfer (by rw [hf]; decide) hx
  rw [← State.signals, hval] at hports
  rw [step_eq_cycle hr, tick_of_unfinished hf hfin, hports]

/-- The count is zero exactly when there is nothing left to subtract. -/
theorem subSteps_eq_zero_iff (r : Regs) : subSteps r.a.toNat r.b.toNat = 0 ↔ r.isFinished := by
  constructor
  · intro h
    by_contra hfin
    rw [subSteps_foldedStep hfin] at h
    cases h
  · exact fun h => subSteps_of_zero (h.imp (word_eq_zero r.a).1 (word_eq_zero r.b).1)

/-- From CALC, n(A, B) silent subtractions lead to a finished CALC state, by induction on the count. -/
theorem runsTo_finished (n : Nat) {s : State} (hn : subSteps s.regs.a.toNat s.regs.b.toNat = n) (hf : s.regs.fsm = .calc)
    (hnr : noReset n s) :
    ∃ t, runsTo n s t ∧ t.regs.fsm = .calc ∧ t.regs.isFinished ∧ t.regs.gcd = s.regs.gcd ∧
      t.log = List.replicate n ⟨false, false, none, none⟩ ++ s.log ∧ (s.regs.b ≠ 0 → t.regs.b ≠ 0) := by
  induction n generalizing s with
  | zero => exact ⟨s, (runsTo_zero s s).2 rfl, hf, (subSteps_eq_zero_iff s.regs).1 hn, rfl, rfl, id⟩
  | succ n ih =>
    have hfin : ¬ s.regs.isFinished := fun h => by
      rw [(subSteps_eq_zero_iff s.regs).2 h] at hn
      cases hn
    have hstep := step_of_unfinished (hnr 0 (by omega)) hf hfin
    have hcount := Nat.succ.inj ((subSteps_foldedStep hfin).symm.trans hn)
    obtain ⟨t, hrun, htf, htfin, hgcd, hlog, hb⟩ :=
      ih (s := s.endCycle (foldedStep s.regs).regs _) hcount (fsm_foldedStep s.regs) (noReset_of_step hstep hnr)
    refine ⟨t, (runsTo_succ_of_step hstep n t).2 hrun, htf, htfin, hgcd.trans (gcd_foldedStep s.regs), ?_,
      hb ∘ foldedStep_b_ne_zero⟩
    rw [hlog, State.endCycle_log, List.replicate_succ', List.append_assoc, List.singleton_append]

/-- Settles O51: B stays nonzero if it was, so that a finished computation ends with A = 0 and its gcd in B. -/
theorem computationTakesItsSteps : Obligations.ComputationTakesItsSteps := by
  intro s hf hnr
  obtain ⟨t, hrun, htf, hfin, hgcd, hlog, hb⟩ := runsTo_finished _ rfl hf hnr
  refine ⟨t, hrun, htf, hfin, hgcd, hlog, fun _ hpos => ?_⟩
  have ha : t.regs.a = 0 := hfin.resolve_right (hb (by rw [Ne, word_eq_zero]; omega))
  refine ⟨ha, ?_⟩
  rw [← hgcd, Regs.gcd, (word_eq_zero _).1 ha, Nat.gcd_zero_left]

/-! ## The response to a request (R136, R180) -/

/-- A cycle in which a response is offered and not taken moves to DONE with A and B kept, and transfers nothing. -/
theorem step_of_stalled {s : State} (hr : s.inputs.reset = false) (hv : s.signals.respVal = true) (hd : s.inputs.respRdy = false) :
    step s = .next (s.endCycle { s.regs with fsm := .done } ⟨false, true, none, none⟩) := by
  have hx : s.signals.respXfer = false := by rw [State.signals, settle_respXfer, hd, Bool.and_false]
  have hports := portsOf_of_no_respXfer (fsm_ne_idle_of_respVal hv) hx
  rw [← State.signals, hv] at hports
  rw [step_eq_cycle hr, tick_of_stalled hv hd, hports]

/-- The offer of `s` is still made in `t`, on the same operands. -/
def State.SameOffer (s t : State) : Prop := t.signals.respVal = true ∧ t.regs.a = s.regs.a ∧ t.regs.b = s.regs.b

/-- While the consumer is not ready the offer is repeated, and only that crosses the ports: the first stall goes to DONE, the others
stay there. -/
theorem runsTo_of_stalled (m : Nat) {s : State} (hv : s.signals.respVal = true) (hnr : noReset m s)
    (hwait : ∀ j < m, (s.inputAt j).respRdy = false) :
    ∃ t, runsTo m s t ∧ s.SameOffer t ∧ t.log = List.replicate m ⟨false, true, none, none⟩ ++ s.log := by
  cases m with
  | zero => exact ⟨s, (runsTo_zero s s).2 rfl, ⟨hv, rfl, rfl⟩, rfl⟩
  | succ m =>
    have hstep := step_of_stalled (hnr 0 (by omega)) hv (hwait 0 (by omega))
    obtain ⟨t, hrun, hregs, hlog⟩ :=
      runsTo_of_done_of_stalled m (s := s.endCycle { s.regs with fsm := .done } _) rfl (noReset_of_step hstep hnr)
        fun j hj => inputAt_of_step hstep j ▸ hwait (j + 1) (by omega)
    refine ⟨t, (runsTo_succ_of_step hstep m t).2 hrun, ?_, ?_⟩
    · exact ⟨settle_respVal_of_done (congrArg Regs.fsm hregs :), (congrArg Regs.a hregs :), (congrArg Regs.b hregs :)⟩
    · rw [hlog, State.endCycle_log, List.replicate_succ', List.append_assoc, List.singleton_append]

/-- A response that is offered to a ready consumer is delivered, and carries the gcd of a finished computation. -/
theorem step_of_delivery {s : State} (hr : s.inputs.reset = false) (hv : s.signals.respVal = true) (hd : s.inputs.respRdy = true)
    (hfin : s.regs.isFinished) :
    ∃ t p v, step s = .next t ∧ t.log = p :: s.log ∧ p.respVal = true ∧ p.response = some v ∧ v.value.toNat = s.regs.gcd := by
  refine ⟨_, _, ⟨s.signals.respValue⟩, step_eq_cycle hr, rfl, hv, if_pos ?_, ?_⟩
  · rw [settle_respXfer, hd, Bool.and_true]
    exact hv
  · rw [State.signals, settle_respValue_of_respVal hv]
    exact foldedResult_eq_gcd_of_finished hfin

/-- Settles O52: the accepting cycle, the computation, the stalls and the delivery, one after the other. -/
theorem acceptedRequestIsAnsweredByItsGcd : Obligations.AcceptedRequestIsAnsweredByItsGcd := by
  intro s m a b n hv hrdy hnr hwait htake
  obtain ⟨p0, hp0, hstep⟩ := step_of_accept (hnr 0 (by omega)) hv hrdy
  obtain ⟨u, hu, huf, hufin, hugcd, hulog, _⟩ :=
    runsTo_finished n (s := s.endCycle ⟨.calc, s.inputs.reqA, s.inputs.reqB⟩ p0) rfl rfl
      fun j hj => inputAt_of_step hstep j ▸ hnr (j + 1) (by omega)
  have hsu : runsTo (n + 1) s u := (runsTo_succ_of_step hstep n u).2 hu
  have huv : u.signals.respVal = true := (State.signals_handshake_of_finished huf ((compare_finished _).2 hufin)).2
  obtain ⟨w, hw, ⟨hwv, hwa, hwb⟩, hwlog⟩ :=
    runsTo_of_stalled m huv (fun j hj => inputAt_of_runsTo hsu j ▸ hnr (n + 1 + j) (by omega))
      fun j hj => inputAt_of_runsTo hsu j ▸ hwait j hj
  have hsw : runsTo (n + 1 + m) s w := (runsTo_add (n + 1) m s w).2 ⟨u, hsu, hw⟩
  have hwin : w.inputs = s.inputAt (n + 1 + m) := inputAt_of_runsTo hsw 0
  have hwfin : w.regs.isFinished := by rwa [Regs.isFinished, hwa, hwb]
  obtain ⟨t, p, v, hdeliver, htlog, hpv, hpresp, hgcd⟩ :=
    step_of_delivery (hwin ▸ hnr (n + 1 + m) (by omega)) hwv (hwin ▸ htake) hwfin
  refine ⟨t, p, v, p0, ?_, ?_, hp0, hpv, hpresp, ?_⟩
  · rw [show n + m + 2 = n + 1 + m + 1 by omega, runsTo_succ_last]
    exact ⟨w, hsw, hdeliver⟩
  · rw [htlog, hwlog, hulog, State.endCycle_log]
  · rw [hgcd, Regs.gcd, hwa, hwb]
    exact hugcd

end Sys2Proof.Machine

/-! PROOFS. The exceptions family (spec/60_exceptions.md): no cycle stops the machine, and the one cycle kind in which both ports
transfer. -/

namespace Sys2Proof.Machine

/-- Settles O30: a step is a reset cycle or the cycle of R131, and both have a next state. -/
theorem stepNeverStops : Obligations.StepNeverStops := exists_step_eq_next

/-! ## Both ports in one cycle (R153) -/

/-- IDLE offers no response and DONE accepts no request, so both ports transfer only in a finished CALC cycle. -/
theorem settle_both_xfer_iff (dc : Config.DontCare) (r : Regs) (i : Inputs) :
    ((settle dc r i).reqXfer = true ∧ (settle dc r i).respXfer = true) ↔
      r.fsm = .calc ∧ r.isFinished ∧ i.respRdy = true ∧ i.reqVal = true := by
  rw [settle_reqXfer, settle_respXfer, Bool.and_eq_true, Bool.and_eq_true]
  cases hf : r.fsm
  case idle => simp [settle_respVal_of_idle hf]
  case done => simp [settle_reqRdy_of_done hf]
  rw [settle_reqRdy_of_calc hf, settle_respVal_of_calc hf, Bool.and_eq_true, compare_finished]
  tauto

/-- Settles O42: two transfers leave only the condition of FIN_CHAIN, and the row of FIN_CHAIN has both. -/
theorem bothPortsTransferOnlyInFinChain : Obligations.BothPortsTransferOnlyInFinChain := by
  refine fun s => ⟨fun hxfer => ?_, fun ⟨sw, hi⟩ => ?_⟩
  · obtain ⟨hf, hfin, hd, hv⟩ := (settle_both_xfer_iff ..).1 hxfer
    exact ⟨(compare s.regs).swap, by rw [decode_key_of_finished hf hfin, hd, hv]; rfl⟩
  · have hrow := signalsFollowTheKindTable s (.finChain sw) hi
    exact ⟨congrArg KindRow.request hrow, congrArg KindRow.response hrow⟩

end Sys2Proof.Machine

/-! PROOFS. The reset and hazards family (spec/70_reset_and_hazards.md): what a reset cycle leaves, how runs start, how long the unit may
take to offer a response, and that it stays in CALC while both partners are always ready. -/

namespace Sys2Proof.Machine

/-- Settles O31: a reset cycle ends in `State.resetCycle`, with its free values for A and B. -/
theorem resetCycleStartsANewRun : Obligations.ResetCycleStartsANewRun :=
  fun _ hr => ⟨_, _, step_of_reset hr⟩

/-- Settles O45: a start of a run is idle and has logged nothing, so no request is open. -/
theorem runsStartInTheInvariant : Obligations.RunsStartInTheInvariant :=
  ⟨⟨State.reset_fsm, State.reset_log⟩, fun _ => State.inv_of_isStart⟩

/-! ## The time to a response (R178) -/

theorem subSteps_toNat_lt (a b : Word) : subSteps a.toNat b.toNat < 65536 :=
  (subSteps_le_max a.toNat b.toNat).trans_lt (max_lt a.isLt b.isLt)

/-- Settles O53: the accepting cycle, and then as many subtractions as the accepted pair needs. -/
theorem responseIsOfferedInBoundedTime : Obligations.ResponseIsOfferedInBoundedTime := by
  intro s hv hrdy hnr
  obtain ⟨p, _, hstep⟩ := step_of_accept (hnr 0 (by omega)) hv hrdy
  have hn : subSteps s.inputs.reqA.toNat s.inputs.reqB.toNat < 65536 := subSteps_toNat_lt ..
  obtain ⟨t, hrun, htf, hfin, _⟩ :=
    runsTo_finished _ (s := s.endCycle ⟨.calc, s.inputs.reqA, s.inputs.reqB⟩ p) rfl rfl
      fun j hj => noReset_of_step hstep hnr j (hj.trans_le (Nat.le_of_lt_succ hn))
  exact ⟨_, t, Nat.le_add_left 1 _, hn, (runsTo_succ_of_step hstep _ t).2 hrun,
    (State.signals_handshake_of_finished htf ((compare_finished _).2 hfin)).2⟩

/-! ## Full throughput (R180) -/

/-- A CALC cycle with a valid request and a ready consumer stays in CALC: it subtracts, or it accepts the request. -/
theorem step_of_calc_of_full_throughput {s : State} (hr : s.inputs.reset = false) (hf : s.regs.fsm = .calc)
    (hv : s.inputs.reqVal = true) (hd : s.inputs.respRdy = true) : ∃ t, step s = .next t ∧ t.regs.fsm = .calc := by
  by_cases hfin : s.regs.isFinished
  · have hrdy : s.signals.reqRdy = true :=
      (State.signals_handshake_of_finished hf ((compare_finished _).2 hfin)).1.trans hd
    obtain ⟨_, _, hstep⟩ := step_of_accept hr hv hrdy
    exact ⟨_, hstep, rfl⟩
  · exact ⟨_, step_of_unfinished hr hf hfin, fsm_foldedStep s.regs⟩

/-- Settles O55, by induction on the number of cycles. -/
theorem fullThroughputNeverLeavesCalc : Obligations.FullThroughputNeverLeavesCalc := by
  intro k
  induction k with
  | zero => exact fun s hf _ _ => ⟨s, (runsTo_zero s s).2 rfl, hf⟩
  | succ k ih =>
    intro s hf hnr hbusy
    obtain ⟨hv, hd⟩ := hbusy 0 (by omega)
    obtain ⟨u, hstep, huf⟩ := step_of_calc_of_full_throughput (hnr 0 (by omega)) hf hv hd
    obtain ⟨t, hrun, htf⟩ :=
      ih u huf (noReset_of_step hstep hnr) fun j hj => inputAt_of_step hstep j ▸ hbusy (j + 1) (by omega)
    exact ⟨t, (runsTo_succ_of_step hstep k t).2 hrun, htf⟩

end Sys2Proof.Machine
